-- ==== Sys2Proof/Word.lean ====
section
/-! DEFINITION. The words of the machine: the widths of 00_scope.md R9, the wire of R11, the segment record of
10_state.md R40, the delivery record of R46, and the closed sets of names (roles, connection states, statuses,
dispatch cases) the rules use. -/

namespace Sys2Proof

/-- One payload byte (R9, R42). -/
abbrev Byte := BitVec 8

/-- A port number (R9, R79); 0 means "unset". -/
abbrev Port := BitVec 16

/-- A sequence or acknowledgment number (R9, R31, R32); `+` on it is the `+32` of R57. -/
abbrev Word32 := BitVec 32

/-- A wire: a finite sequence of bits, the first element the first bit transmitted (R11). -/
abbrev Wire := List Bool

/-- The six control flags of a segment, in the source's order (R14, R39). -/
structure FlagSet where
  urg : Bool
  ack : Bool
  psh : Bool
  rst : Bool
  syn : Bool
  fin : Bool
  deriving DecidableEq, Repr

/-- The segment record (R40). The acknowledgment NUMBER is `ack`; the acknowledgment FLAG is `flags.ack`. The three
padding bits are not part of the record. -/
structure Segment where
  srcPort    : Port
  dstPort    : Port
  seq        : Word32
  ack        : Word32
  dataOffset : BitVec 4
  reserved   : BitVec 3
  flags      : FlagSet
  window     : BitVec 16
  checksum   : BitVec 16
  urgent     : BitVec 16
  payload    : List Byte
  deriving DecidableEq, Repr

/-- A delivery record: a wire with the two ports that stand beside it (R46, R114). -/
structure DeliveryRecord where
  wire    : Wire
  srcPort : Port
  dstPort : Port
  deriving DecidableEq, Repr

/-- Which variant a sequencer is (R8 `ROLE`). -/
inductive Role where
  | initiator
  | responder
  deriving DecidableEq, Repr

/-- The twelve labels of the `state` register, one enumeration for both roles (R33). -/
inductive ConnState where
  | closed
  | listening
  | synSent
  | synReceived
  | synAckReceived
  | established
  | dataReceived
  | finWait1
  | finWait2
  | timeWait
  | closeWait
  | lastAck
  deriving DecidableEq, Repr

/-- The six statuses a transaction can return (R270). -/
inductive Status where
  | ok
  | malformedSegment
  | notEstablished
  | unaddressedSegment
  | unknownDestination
  | invalidState
  deriving DecidableEq, Repr

/-- The sixteen dispatch cases of R111 and R112. -/
inductive RxCase where
  | iC0 | iC1 | iC2 | iC3 | iC4 | iC5 | iC6 | iC7
  | rC1 | rC1a | rC2 | rC3 | rC4 | rC6 | rC5 | rC7
  deriving DecidableEq, Repr

/-- The names of the six flags, for the summary of R287. -/
inductive Flag where
  | URG | ACK | PSH | RST | SYN | FIN
  deriving DecidableEq, Repr

end Sys2Proof
end

