-- ==== Sys2Proof/Syntax.lean ====
section
/-! DEFINITION. The instructions: one constructor for each row of spec/opcode_table.json (the operations of
30_encoding.md R108, the reserved numbers of R110, the two segment formats of R101 and R141, the dispatch cases of
R111 and R112), and the requests through which an instruction reaches the machine (10_state.md R50 to R54,
30_encoding.md R115). `ep` is always a sequencer's instance number (R109, R285). -/

namespace Sys2Proof

inductive Instr where
  /-- ENCODE (R141). -/
  | encode (g : Segment)
  /-- DECODE (R142). -/
  | decode (w : Wire)
  /-- I.OPEN (R172). -/
  | iOpen (ep : Nat) (dst : Port)
  /-- I.SEND (R173). -/
  | iSend (ep : Nat) (dst : Port) (payload : List Byte)
  /-- I.CLOSE (R174). -/
  | iClose (ep : Nat) (dst : Port)
  /-- I.EXPIRE (R175). -/
  | iExpire (ep : Nat)
  /-- I.RECV (R176). -/
  | iRecv (ep : Nat) (w : Wire)
  /-- R.RECV (R211). -/
  | rRecv (ep : Nat) (w : Wire)
  /-- N.REGI (R241). -/
  | nRegi (port : Port) (inst : Nat)
  /-- N.REGR (R242). -/
  | nRegr (port : Port) (inst : Nat)
  /-- N.XMIT (R243). -/
  | nXmit (w : Wire) (src : Port) (dst : Port)
  /-- N.DELIVER (R244). -/
  | nDeliver
  /-- N.DRAIN (R245). -/
  | nDrain
  /-- Operation number 0x0, reserved (R110). -/
  | reserved0
  /-- Operation number 0x3, reserved (R110). -/
  | reserved3
  /-- Operation number 0xF, reserved (R110). -/
  | reservedF
  /-- SEG: a wire of at least 160 bits on the codec's decoding side, its header read as the value `HDR` of R101 and
  the bits after it. -/
  | seg (hdr : BitVec 160) (tail : Wire)
  /-- SEG.BUILT: a wire of the pattern every well-formed record has on the wire (R41, R117): the fields that are
  not fixed. -/
  | segBuilt (src : Port) (dst : Port) (sq : Word32) (ak : Word32) (f : FlagSet)
      (window : BitVec 16) (checksum : BitVec 16) (urgent : BitVec 16) (payload : List Byte)
  /-- Dispatch case I-C0 (R180) and the rows after it. -/
  | iC0 (ep : Nat) (g : Segment)
  /-- Dispatch case I-C1 (R181) and the rows after it. -/
  | iC1 (ep : Nat) (g : Segment)
  /-- Dispatch case I-C2 (R182) and the rows after it. -/
  | iC2 (ep : Nat) (g : Segment)
  /-- Dispatch case I-C3 (R183) and the rows after it. -/
  | iC3 (ep : Nat) (g : Segment)
  /-- Dispatch case I-C4 (R184) and the rows after it. -/
  | iC4 (ep : Nat) (g : Segment)
  /-- Dispatch case I-C5 (R185) and the rows after it. -/
  | iC5 (ep : Nat) (g : Segment)
  /-- Dispatch case I-C6 (R186) and the row after it. -/
  | iC6 (ep : Nat) (g : Segment)
  /-- Dispatch case I-C7 (R187). -/
  | iC7 (ep : Nat) (g : Segment)
  /-- Dispatch case R-C1 (R212) and the rows after it. -/
  | rC1 (ep : Nat) (g : Segment)
  /-- Dispatch case R-C1a (R213) and the rows after it. -/
  | rC1a (ep : Nat) (g : Segment)
  /-- Dispatch case R-C2 (R214) and the rows after it. -/
  | rC2 (ep : Nat) (g : Segment)
  /-- Dispatch case R-C3 (R215), which never matches, and the rows after it. -/
  | rC3 (ep : Nat) (g : Segment)
  /-- Dispatch case R-C4 (R216) and the rows after it. -/
  | rC4 (ep : Nat) (g : Segment)
  /-- Dispatch case R-C6 (R217) and the rows after it. -/
  | rC6 (ep : Nat) (g : Segment)
  /-- Dispatch case R-C5 (R218) and the row after it. -/
  | rC5 (ep : Nat) (g : Segment)
  /-- Dispatch case R-C7 (R219). -/
  | rC7 (ep : Nat) (g : Segment)
  deriving DecidableEq, Repr

/-- The instances a script's `I.…` and `R.RECV` lines address: the script form names none (R115), "this spec's
programs use 0 for the Initiator and 1 for the Responder" (R109). -/
structure Binding where
  ini : Nat
  rsp : Nat
  deriving DecidableEq, Repr

/-- The binding of this spec's programs (R109). -/
def Binding.standard : Binding := { ini := 0, rsp := 1 }

/-- What the host or the environment can put to the machine as one transaction (R7, R50, R51, R54, R277), or as the
byte form of script lines, one after another (R115). -/
inductive Request where
  /-- Script lines in their byte form (R115), the first line first. -/
  | script (b : Binding) (line : List Byte)
  /-- The command interface of sequencer `ep` (R50). -/
  | command (ep : Nat) (op : BitVec 4) (dst : Port) (payload : List Byte)
  /-- The receive interface of sequencer `ep` (R51). -/
  | receive (ep : Nat) (w : Wire)
  /-- The codec's encoding side (R54). -/
  | record (g : Segment)
  /-- The codec's decoding side (R54). -/
  | wire (w : Wire)
  /-- `registerInitiator` (R241). -/
  | registerInitiator (port : Port) (inst : Nat)
  /-- `registerResponder` (R242). -/
  | registerResponder (port : Port) (inst : Nat)
  /-- `transmit` (R243). -/
  | transmit (w : Wire) (src : Port) (dst : Port)
  /-- `deliverNext` (R244). -/
  | deliverNext
  /-- `drainAll` (R245). -/
  | drainAll
  deriving DecidableEq, Repr

/-- Why a request is no instruction. -/
inductive DecodeError where
  /-- A script line with no byte. -/
  | emptyLine
  /-- Byte 0 of a script line is not `0x0` followed by an operation number (R115). -/
  | notAnOperationByte
  /-- A script line ends before its operands do (R115). -/
  | truncatedLine
  /-- The padding bits of a script's record, or the bits after a script's wire in its last byte, are not 0 (R115). -/
  | paddingNotZero
  /-- A command request whose number belongs to another interface (R110). -/
  | notACommand
  deriving DecidableEq, Repr

end Sys2Proof
end

