-- ==== Sys2Proof/Machine/Flags.lean ====
section
/-! DEFINITION. Flags and codes: the 9-bit flags field (30_encoding.md R103), the flag sets of built segments (R113),
the masks of the dispatch rows (R111, R112), the predicates on `state` (10_state.md R35), and the numbers of states,
statuses and operations (R33, R270, R108). -/

namespace Sys2Proof.Machine

open Sys2Proof

/-- No flag set: "absent flag = 0" (R14). -/
def noFlags : FlagSet :=
  { urg := false, ack := false, psh := false, rst := false, syn := false, fin := false }

/-- {SYN} (R113, I.OPEN). -/
def flagsSyn : FlagSet := { noFlags with syn := true }

/-- {SYN, ACK} (R113, R-C1). -/
def flagsSynAck : FlagSet := { noFlags with syn := true, ack := true }

/-- {ACK} (R113). -/
def flagsAck : FlagSet := { noFlags with ack := true }

/-- {PSH, ACK} (R113, I.SEND). -/
def flagsPshAck : FlagSet := { noFlags with psh := true, ack := true }

/-- {FIN, ACK} (R113, I.CLOSE). -/
def flagsFinAck : FlagSet := { noFlags with fin := true, ack := true }

/-- {FIN} (R113, R-C5). -/
def flagsFin : FlagSet := { noFlags with fin := true }

/-- The flags field as a 9-bit value, URG most significant, padding 000 (R103, R141). -/
def flags9 (f : FlagSet) : BitVec 9 :=
  BitVec.ofBool f.urg ++ BitVec.ofBool f.ack ++ BitVec.ofBool f.psh ++ BitVec.ofBool f.rst ++
    BitVec.ofBool f.syn ++ BitVec.ofBool f.fin ++ (0 : BitVec 3)

/-- The flag set of a 9-bit flags field: its first six bits, the padding ignored (R103). -/
def flagsOfField (v : BitVec 9) : FlagSet :=
  { urg := v.getLsbD 8, ack := v.getLsbD 7, psh := v.getLsbD 6, rst := v.getLsbD 5,
    syn := v.getLsbD 4, fin := v.getLsbD 3 }

/-- The flags that are set, in the fixed order: the "set of active flags" of a summary (R287). -/
def activeFlags (f : FlagSet) : List Flag :=
  (if f.urg then [Flag.URG] else []) ++ (if f.ack then [Flag.ACK] else []) ++
    (if f.psh then [Flag.PSH] else []) ++ (if f.rst then [Flag.RST] else []) ++
    (if f.syn then [Flag.SYN] else []) ++ (if f.fin then [Flag.FIN] else [])

/-- The flag set is exactly {ACK} (R186). -/
def isBareAck (f : FlagSet) : Bool :=
  f.ack && !f.urg && !f.psh && !f.rst && !f.syn && !f.fin

/-- `mask` and `match` of a dispatch row on `flags9` (R111, R112, opcode_table.json). -/
def rowMask : RxCase → BitVec 9 × BitVec 9
  | .iC0  => (0x000, 0x000)
  | .iC1  => (0x090, 0x090)
  | .iC2  => (0x080, 0x080)
  | .iC3  => (0x040, 0x040)
  | .iC4  => (0x080, 0x080)
  | .iC5  => (0x008, 0x008)
  | .iC6  => (0x1F8, 0x080)
  | .iC7  => (0x000, 0x000)
  | .rC1  => (0x010, 0x010)
  | .rC1a => (0x080, 0x080)
  | .rC2  => (0x040, 0x040)
  | .rC3  => (0x000, 0x000)
  | .rC4  => (0x008, 0x008)
  | .rC6  => (0x080, 0x080)
  | .rC5  => (0x000, 0x000)
  | .rC7  => (0x000, 0x000)

/-- The flag condition of a dispatch row: `(flags9 & mask) == match` (R111). The dead row R-C3 has none that holds
(R215). -/
def rowFlagsMatch (c : RxCase) (v : BitVec 9) : Bool :=
  c != .rC3 && (v &&& (rowMask c).1) == (rowMask c).2

/-- `est_like` (R35). -/
def estLike (c : ConnState) : Bool := c == .established || c == .dataReceived

/-- `pre_est` (R35). -/
def preEst (c : ConnState) : Bool := c == .synSent || c == .synAckReceived

/-- The labels a sequencer of a role may hold: those R56 (a) and (b) list, and SYN-ACK-RECEIVED for the Initiator, to
which R182 gives a meaning. A step of a sequencer with another label is refused (R223, R289; U5, U6). -/
def ownState : Role → ConnState → Bool
  | .initiator, c =>
    c == .closed || c == .synSent || c == .synAckReceived || c == .established || c == .dataReceived ||
      c == .finWait1 || c == .finWait2 || c == .timeWait
  | .responder, c =>
    c == .listening || c == .synReceived || c == .established || c == .dataReceived || c == .closeWait ||
      c == .lastAck || c == .closed

/-- The label a sequencer is constructed in (R49). -/
def resetLabel : Role → ConnState
  | .initiator => .closed
  | .responder => .listening

/-- The 4-bit code of a state label (R33). -/
def stateCode : ConnState → BitVec 4
  | .closed         => 0x0
  | .listening      => 0x1
  | .synSent        => 0x2
  | .synReceived    => 0x3
  | .synAckReceived => 0x4
  | .established    => 0x5
  | .dataReceived   => 0x6
  | .finWait1       => 0x7
  | .finWait2       => 0x8
  | .timeWait       => 0x9
  | .closeWait      => 0xA
  | .lastAck        => 0xB

/-- The 3-bit code of a status (R270). -/
def statusCode : Status → BitVec 3
  | .ok                 => 0
  | .malformedSegment   => 1
  | .notEstablished     => 2
  | .unaddressedSegment => 3
  | .unknownDestination => 4
  | .invalidState       => 5

/-- The 4-bit operation number of an operation (R108) or of a reserved row (R110); the segment formats and the
dispatch cases have none. -/
def opNumber : Instr → Option (BitVec 4)
  | .reserved0   => some 0x0
  | .encode _    => some 0x1
  | .decode _    => some 0x2
  | .reserved3   => some 0x3
  | .iOpen _ _   => some 0x4
  | .iSend _ _ _ => some 0x5
  | .iClose _ _  => some 0x6
  | .iExpire _   => some 0x7
  | .iRecv _ _   => some 0x8
  | .rRecv _ _   => some 0x9
  | .nRegi _ _   => some 0xA
  | .nRegr _ _   => some 0xB
  | .nXmit _ _ _ => some 0xC
  | .nDeliver    => some 0xD
  | .nDrain      => some 0xE
  | .reservedF   => some 0xF
  | .seg _ _     => none
  | .segBuilt _ _ _ _ _ _ _ _ _ => none
  | .iC0 _ _     => none
  | .iC1 _ _     => none
  | .iC2 _ _     => none
  | .iC3 _ _     => none
  | .iC4 _ _     => none
  | .iC5 _ _     => none
  | .iC6 _ _     => none
  | .iC7 _ _     => none
  | .rC1 _ _     => none
  | .rC1a _ _    => none
  | .rC2 _ _     => none
  | .rC3 _ _     => none
  | .rC4 _ _     => none
  | .rC6 _ _     => none
  | .rC5 _ _     => none
  | .rC7 _ _     => none

end Sys2Proof.Machine
end

