-- ==== Sys2Proof/Machine/Operands.lean ====
section
/-! DEFINITION. The operand forms: reading and writing a field of a wire (00_scope.md R11, the one place where the bit
order of 20_memory.md R72 is decided, as 93_implementation_defined.md U22 asks), the byte presentation of a wire
(R73), and the operand forms of the script notation (30_encoding.md R109, R115). -/

namespace Sys2Proof.Machine

open Sys2Proof

/-- `bitsN` of R11: the n-bit wire of a value, most significant bit first (R72). -/
def bitsN {n : Nat} (v : BitVec n) : Wire := (List.range n).map fun k => v.getMsbD k

/-- The unsigned number whose binary digits are the bits of a wire, the first the most significant (R72). -/
def natOfBits (w : Wire) : Nat := w.foldl (fun a b => 2 * a + b.toNat) 0

/-- `MemRead(w, p, n)` of R11: the n-bit value at wire positions p .. p+n-1, first bit most significant (R72). -/
def memRead (w : Wire) (p n : Nat) : BitVec n := BitVec.ofNat n (natOfBits ((w.drop p).take n))

/-- The bit at wire position `p` (R11 `w(p)`); outside the wire there is none, and `false` stands in. -/
def bitAt (w : Wire) (p : Nat) : Bool := w.getD p false

/-- The wire whose byte presentation is the given bytes (R73). -/
def wireOfBytes (bs : List Byte) : Wire := bs.flatMap bitsN

/-- The byte presentation of a wire (R73), a last partial byte padded with zero bits on the right (R115). -/
def bytesOfWire (w : Wire) : List Byte :=
  let padded := w ++ List.replicate (8 * ((w.length + 7) / 8) - w.length) false
  (List.range ((w.length + 7) / 8)).map fun j => memRead padded (8 * j) 8

/-- A number as 2 bytes, high first (R115); the form holds 0 to 65535. -/
def be16 (n : Nat) : List Byte := [BitVec.ofNat 8 (n / 256), BitVec.ofNat 8 n]

/-- A port as 2 bytes, high first (R115). -/
def portBytes (p : Port) : List Byte := be16 p.toNat

/-- Read 2 bytes, high first (R115). -/
def takeBe16 : List Byte → Option (Nat × List Byte)
  | h :: l :: rest => some (256 * h.toNat + l.toNat, rest)
  | _ => none

/-- Read a port (R115). -/
def takePort (bs : List Byte) : Option (Port × List Byte) :=
  (takeBe16 bs).map fun r => (BitVec.ofNat 16 r.1, r.2)

/-- Read `n` bytes. -/
def takeBytes (n : Nat) (bs : List Byte) : Option (List Byte × List Byte) :=
  if n ≤ bs.length then some (bs.take n, bs.drop n) else none

/-- Read one byte as a number (R115 `instance`). -/
def takeInst : List Byte → Option (Nat × List Byte)
  | b :: rest => some (b.toNat, rest)
  | [] => none

/-- The script form of a wire (R115): its bit length in 2 bytes, then its bytes. -/
def wireBytes (w : Wire) : List Byte := be16 w.length ++ bytesOfWire w

/-- The rest of a script line's wire, after its length `n` has been read: the bits, whether the bits after them in the
last byte are zero, and the bytes that follow (R115). -/
def takeBits (n : Nat) (bs : List Byte) : Option (Wire × Bool × List Byte) :=
  (takeBytes ((n + 7) / 8) bs).map fun r =>
    ((wireOfBytes r.1).take n, ((wireOfBytes r.1).drop n).all (! ·), r.2)

/-- Read a wire in its script form (R115). -/
def takeWire (bs : List Byte) : Option (Wire × Bool × List Byte) :=
  (takeBe16 bs).bind fun r => takeBits r.1 r.2

end Sys2Proof.Machine
end

