-- ==== Sys2Proof/Machine/Codec.lean ====
section
/-! DEFINITION. The codec (40_codec.md): `MkSeg` (10_state.md R41), ENCODE (R141) and DECODE (R142) as functions, and
the header read as the value `HDR` (30_encoding.md R101). -/

namespace Sys2Proof.Machine

open Sys2Proof

/-- `MkSeg` (R41): a record with `data_offset` 5 and `reserved` 0. -/
def mkSeg (src dst : Port) (sq ak : Word32) (f : FlagSet) (window checksum urgent : BitVec 16)
    (payload : List Byte) : Segment :=
  { srcPort := src, dstPort := dst, seq := sq, ack := ak, dataOffset := 5, reserved := 0, flags := f,
    window := window, checksum := checksum, urgent := urgent, payload := payload }

/-- A segment record is well-formed (R41). -/
def segWellFormed (g : Segment) : Bool := g.dataOffset == 5 && g.reserved == 0

/-- The 160 header bits of a record (R141): the fields in the order of R71. -/
def encodeHeader (g : Segment) : Wire :=
  bitsN g.srcPort ++ bitsN g.dstPort ++ bitsN g.seq ++ bitsN g.ack ++ bitsN g.dataOffset ++
    bitsN g.reserved ++ bitsN (flags9 g.flags) ++ bitsN g.window ++ bitsN g.checksum ++ bitsN g.urgent

/-- ENCODE (R141): the header, then each payload byte as 8 bits (R148). -/
def codecEncode (g : Segment) : Wire := encodeHeader g ++ wireOfBytes g.payload

/-- The payload bytes of a wire of length L: floor((L - 160) / 8) groups of 8 bits from position 160 on, a ragged tail
dropped (R142, R104, R76). -/
def decodePayload (w : Wire) : List Byte :=
  (List.range ((w.length - 160) / 8)).map fun j => memRead w (160 + 8 * j) 8

/-- The record DECODE reads from a wire of at least 160 bits (R142). -/
def decodeFields (w : Wire) : Segment :=
  { srcPort := memRead w 0 16, dstPort := memRead w 16 16, seq := memRead w 32 32, ack := memRead w 64 32,
    dataOffset := memRead w 96 4, reserved := memRead w 100 3,
    flags := { urg := bitAt w 103, ack := bitAt w 104, psh := bitAt w 105, rst := bitAt w 106,
               syn := bitAt w 107, fin := bitAt w 108 },
    window := memRead w 112 16, checksum := memRead w 128 16, urgent := memRead w 144 16,
    payload := decodePayload w }

/-- DECODE (R142): `none` is MalformedSegment, for a wire shorter than 160 bits and no other. -/
def codecDecode (w : Wire) : Option Segment :=
  if w.length < 160 then none else some (decodeFields w)

/-- `HDR` of a wire (R101): wire position 0 is `HDR[159]`. -/
def hdrOfWire (w : Wire) : BitVec 160 := memRead w 0 160

/-- The wire of a SEG instruction. -/
def wireOfSeg (hdr : BitVec 160) (tail : Wire) : Wire := bitsN hdr ++ tail

/-- `flags9` of a wire, padding included (R103). -/
def wireFlags9 (w : Wire) : BitVec 9 := memRead w 103 9

/-- The pattern of row SEG.BUILT (opcode_table.json, R117): `data_offset` 0101, `reserved` 000, padding 000. -/
def builtPattern (hdr : BitVec 160) : Bool :=
  hdr &&& 0x000000000000000000000000FE07000000000000#160 == 0x0000000000000000000000005000000000000000#160

/-- The wire is one that ENCODE makes from a well-formed record: the pattern of SEG.BUILT and whole payload bytes
(R117, R146). -/
def isBuiltWire (w : Wire) : Bool := builtPattern (hdrOfWire w) && (w.length - 160) % 8 == 0

end Sys2Proof.Machine
end

