-- ==== Sys2Proof/Config.lean ====
section
/-! DEFINITION. The implementation parameters of 00_scope.md R8. All of them but one are plain data and are carried
by the state (field `par` and the constants of each sequencer), so that a statement about every state is a statement
about every choice of them; the one that is a function, `BARE_ACK_UPDATE`, is an opaque constant. -/

namespace Sys2Proof

/-- `FIN_POLICY` (R8, D22): when the Responder sends its own FIN. -/
inductive FinPolicy where
  | lazy
  | eager
  deriving DecidableEq, Repr

/-- Which `BARE_ACK_UPDATE` (R8, R186, D17) the machine has: the default identity, or a function nothing is
known about (`Config.bareAckUpdate`). -/
inductive BareAckPolicy where
  | identity
  | unspecified
  deriving DecidableEq, Repr

/-- The parameters of R8 that are shared by all sequencers and the link. `none` in a capacity is "unbounded". -/
structure Params where
  txWindow    : BitVec 16
  txChecksum  : BitVec 16
  txUrgent    : BitVec 16
  finPolicy   : FinPolicy
  iPshAutoack : Bool
  bareAck     : BareAckPolicy
  payloadMax  : Option Nat
  queueDepth  : Option Nat
  deriving DecidableEq, Repr

/-- The defaults of R8's table. -/
def Params.default : Params :=
  { txWindow := 0, txChecksum := 0, txUrgent := 0, finPolicy := .lazy, iPshAutoack := false,
    bareAck := .identity, payloadMax := none, queueDepth := none }

/-- The constants of one sequencer: `ROLE`, `PORT` and `ISS` of R8. -/
structure SeqConfig where
  role : Role
  port : Port
  iss  : Word32
  deriving DecidableEq, Repr

/-- DESIGN CHOICE (log entry 1): the two sequencers of R6 with the ports and initial sequence numbers that
95_test_vectors.md uses; `PORT` and `ISS` are OPEN in R8. Instance 0 is the Initiator, instance 1 the Responder
(R109). -/
def SeqConfig.pair : List SeqConfig :=
  [ { role := .initiator, port := 12345, iss := 1000 }, { role := .responder, port := 80, iss := 5000 } ]

/-- FREE VALUE (log entry 3): the value a bare ACK writes into `rcv_ack` when `BARE_ACK_UPDATE` is not the default
(R186: "a total function of the old `rcv_ack` and the decoded segment of which the rules assume nothing"). -/
opaque Config.bareAckUpdate : Word32 → Segment → Word32

end Sys2Proof
end

