-- ==== Sys2Proof/Machine/State.lean ====
section
/-! DEFINITION. The state of the machine (10_state.md R30), the faults and refusals a step can end in, and reset
(70_reset_and_hazards.md R300, 10_state.md R49). -/

namespace Sys2Proof.Machine

open Sys2Proof

/-- One sequencer instance: its constants `ROLE`, `PORT`, `ISS` (R8, R38, R48) and its four registers (R31 to R36). -/
structure Seq where
  role    : Role
  port    : Port
  iss     : Word32
  state   : ConnState
  sndSeq  : Word32
  rcvAck  : Word32
  finOwed : Bool
  deriving DecidableEq, Repr

/-- A port table (R44): (port, instance) pairs, ports strictly rising; an unlisted port is unregistered. -/
abbrev PortTable := List (Port × Nat)

/-- What a transaction answers (R50 to R54): its one status (R270), the wire of an ENCODE, the record of a DECODE, and the
transmit list. The model's own field (log entry 4): the spec keeps a status nowhere (R37), and no instruction reads
it. -/
structure Response where
  status : Option Status
  wire   : Option Wire
  record : Option Segment
  tx     : List DeliveryRecord
  deriving DecidableEq, Repr

/-- Nothing answered yet. -/
def Response.empty : Response := { status := none, wire := none, record := none, tx := [] }

structure State where
  /-- The sequencer instances, by instance number (R30, R285). -/
  seqs     : List Seq
  /-- `itab` (R44). -/
  itab     : PortTable
  /-- `rtab` (R44). -/
  rtab     : PortTable
  /-- `q`, the head first (R45). -/
  q        : List DeliveryRecord
  /-- The parameters of R8: constants of the machine. -/
  par      : Params
  /-- Records emitted and not yet handed to the link (R246). The model's own field (log entries 4 and 5). -/
  handover : List DeliveryRecord
  /-- An N.DRAIN is under way: its loop has made a delivery and the queue was not empty after it (R245). The model's own
  field (log entries 4 and 15). -/
  draining : Bool
  /-- The host's pending requests, the next first (R6). The model's own field (log entry 4). -/
  inbox    : List Request
  /-- The last transaction's answer. The model's own field (log entry 4). -/
  resp     : Response
  deriving DecidableEq, Repr

/-- Why the machine stops with a fault. -/
inductive Fault where
  /-- Raised by `step` with no request pending, no drain under way and nothing to hand over: "a sequencer with
  nothing to do simply has no step" (R288), the stuck outcome of R289. Safe (log entry 6). -/
  | idle
  deriving DecidableEq, Repr

/-- Why a request has no meaning. -/
inductive Refusal where
  /-- Raised by `exec` for an instruction whose arm has no meaning yet. Safe. -/
  | notModelled (mnemonic : String)
  /-- Raised by every operation on a sequencer when no instance has the number given. Safe (log entry 12). -/
  | noSuchInstance
  /-- Raised by N.REGI and N.REGR for an instance of the other role, which the operand's type excludes (R241), and by
  N.DELIVER if a table held one. Safe (log entry 11). -/
  | illTypedInstance
  /-- Raised by every operation on a sequencer whose `state` its role never holds (R223, R289). Safe (log entry 10). -/
  | foreignState
  /-- Raised by the codec, I.SEND and the receive operations for a payload over `PAYLOAD_MAX` (R42, R141, R142, R289).
  Safe (log entry 13). -/
  | payloadOverMax
  /-- Raised by N.XMIT, and by N.DELIVER for its replies, on a queue of `QUEUE_DEPTH` records (R243, R289). Safe
  (log entry 13). -/
  | queueFull
  /-- Raised by `step` for a script line that is no line of R115. Safe (log entry 16). -/
  | badScriptLine (e : DecodeError)
  deriving DecidableEq, Repr

/-- A sequencer at reset (R49). -/
def Seq.reset (c : SeqConfig) : Seq :=
  { role := c.role, port := c.port, iss := c.iss,
    state := resetLabel c.role, sndSeq := c.iss, rcvAck := 0, finOwed := false }

/-- The machine at reset for any parameters and any sequencers (R49, R300, R301). -/
def State.resetWith (p : Params) (cs : List SeqConfig) : State :=
  { seqs := cs.map Seq.reset, itab := [], rtab := [], q := [], par := p, handover := [], draining := false,
    inbox := [], resp := Response.empty }

/-- The machine right after reset, with the defaults of R8 (log entry 2) and the two sequencers of the spec's vectors
(log entry 1). -/
def State.reset : State := State.resetWith Params.default SeqConfig.pair

end Sys2Proof.Machine
end

