-- ==== Sys2Proof/Machine/Ops.lean ====
section
/-! DEFINITION. The shared operations: the port tables (10_state.md R44, 20_memory.md R80), building and emitting a
segment (41_initiator.md R171), raising an error (00_scope.md R13, 60_exceptions.md R279), the unaddressed check
(41_initiator.md R178), applying a step to one sequencer, the capacities (00_scope.md R8), and the status interface
(10_state.md R53). -/

namespace Sys2Proof.Machine

open Sys2Proof

/-- The instance registered at a port, if any (R44). -/
def tableGet : PortTable → Port → Option Nat
  | [], _ => none
  | (p, n) :: t, key => if p = key then some n else tableGet t key

/-- `table[port] <- instance` (R241, R242), keeping the ports strictly rising. -/
def tableSet : PortTable → Port → Nat → PortTable
  | [], key, n => [(key, n)]
  | (p, m) :: t, key, n =>
    if key < p then (key, n) :: (p, m) :: t
    else if key = p then (key, n) :: t
    else (p, m) :: tableSet t key n

/-- The canonical form of a port table: ports strictly rising. -/
def tableWf : PortTable → Bool
  | [] => true
  | [_] => true
  | (p, _) :: (p', n') :: t => decide (p < p') && tableWf ((p', n') :: t)

/-- What a sequencer's step ends with: its status, the sequencer after it, and its transmit list (R50 to R52). -/
structure SeqResult where
  status : Status
  seq    : Seq
  tx     : List DeliveryRecord
  deriving DecidableEq, Repr

/-- `raise E` (R13, R279): the step ends with status `E`, nothing written, nothing emitted. -/
def raise (st : Status) (e : Seq) : SeqResult := { status := st, seq := e, tx := [] }

/-- A step that ends with status OK. -/
def done (e : Seq) (tx : List DeliveryRecord) : SeqResult := { status := .ok, seq := e, tx := tx }

/-- The segment `Emit` builds (R171). -/
def buildSegment (p : Params) (e : Seq) (f : FlagSet) (dst : Port) (sq ak : Word32) (payload : List Byte) : Segment :=
  mkSeg e.port dst sq ak f p.txWindow p.txChecksum p.txUrgent payload

/-- `Emit` (R171): the one delivery record of a built segment, its ports those inside the wire. -/
def emit (p : Params) (e : Seq) (f : FlagSet) (dst : Port) (sq ak : Word32) (payload : List Byte) : DeliveryRecord :=
  { wire := codecEncode (buildSegment p e f dst sq ak payload), srcPort := e.port, dstPort := dst }

/-- The unaddressed check (R178, R273): before any write of the step. -/
def addressed (dst : Port) (e : Seq) (r : SeqResult) : SeqResult :=
  if dst = 0 then raise .unaddressedSegment e else r

/-- `zext_32(N)` of a payload byte count, modulo 2^32 (R57). -/
def byteCount (payload : List Byte) : Word32 := BitVec.ofNat 32 payload.length

/-- `BARE_ACK_UPDATE` (R8, R186). -/
def bareAckUpdate (p : Params) (old : Word32) (g : Segment) : Word32 :=
  match p.bareAck with
  | .identity => old
  | .unspecified => Config.bareAckUpdate old g

/-- A count lies over a capacity parameter (R8); `none` is unbounded. -/
def overLimit (lim : Option Nat) (n : Nat) : Bool :=
  match lim with
  | none => false
  | some m => decide (m < n)

/-- The wire, decoded, has a payload over `PAYLOAD_MAX` (R142). -/
def wireOverMax (p : Params) (w : Wire) : Bool :=
  decide (160 ≤ w.length) && overLimit p.payloadMax ((w.length - 160) / 8)

/-- The queue has room for `k` more records (R45, R243). -/
def queueHasRoom (s : State) (k : Nat) : Bool := k == 0 || !overLimit s.par.queueDepth (s.q.length + k)

/-- A transaction's answer that is a status alone (R50, R51). -/
def State.answer (s : State) (st : Status) : State :=
  { s with resp := { Response.empty with status := some st } }

/-- The codec's answer to an ENCODE: a wire (R54). -/
def State.answerWire (s : State) (w : Wire) : State :=
  { s with resp := { Response.empty with status := some .ok, wire := some w } }

/-- The codec's answer to a DECODE: status and, when OK, a record (R54, R142). -/
def State.answerRecord (s : State) (r : Option Segment) : State :=
  match r with
  | some g => { s with resp := { Response.empty with status := some .ok, record := some g } }
  | none => s.answer .malformedSegment

/-- A sequencer's step takes effect (R6, R304): its registers are written, its records go to the transmit interface
(R52) and wait for their hand-over to the link (R246), its status is answered. -/
def State.commit (s : State) (ep : Nat) (r : SeqResult) : State :=
  { s with
    seqs := s.seqs.set ep r.seq
    handover := s.handover ++ r.tx
    resp := { Response.empty with status := some r.status, tx := r.tx } }

/-- An operation on sequencer `ep` that belongs to the sequencers of one role. A sequencer of the other role answers
InvalidState and does nothing (R110, R221); a missing instance and a label the role never holds are refused (log
entries 12 and 10). -/
def onSeq (role : Role) (ep : Nat) (f : Seq → SeqResult) (s : State) : Host.Outcome State Fault Refusal :=
  match s.seqs[ep]? with
  | none => .refused .noSuchInstance
  | some e =>
    if e.role ≠ role then .next (s.answer .invalidState)
    else if ownState e.role e.state = false then .refused .foreignState
    else .next (s.commit ep (f e))

/-- An operation on sequencer `ep` whose payload must lie within `PAYLOAD_MAX` (R42, R142). -/
def onSeqWithin (tooLong : Bool) (role : Role) (ep : Nat) (f : Seq → SeqResult) (s : State) :
    Host.Outcome State Fault Refusal :=
  if tooLong then .refused .payloadOverMax else onSeq role ep f s

/-- The status interface of a sequencer (R53, R287): a read without side effect, and no step. -/
structure StatusView where
  stateCode : BitVec 4
  sndSeq    : Word32
  rcvAck    : Word32
  finOwed   : Bool
  port      : Port
  role      : Role
  deriving DecidableEq, Repr

/-- What the status interface of sequencer `ep` reads (R53). -/
def statusRead (s : State) (ep : Nat) : Option StatusView :=
  (s.seqs[ep]?).map fun e =>
    { stateCode := stateCode e.state, sndSeq := e.sndSeq, rcvAck := e.rcvAck, finOwed := e.finOwed,
      port := e.port, role := e.role }

end Sys2Proof.Machine
end

