-- ==== Sys2Proof/Machine/CodecOps.lean ====
section
/-! DEFINITION. The meanings of ENCODE, DECODE (40_codec.md R141, R142) and of the two segment formats SEG and
SEG.BUILT (30_encoding.md R101, R117). They write no state but the answer (R140). -/

namespace Sys2Proof.Machine

open Sys2Proof

/-- The codec answers a DECODE request (R142); a payload over `PAYLOAD_MAX` is refused (log entry 13). -/
def answerDecode (w : Wire) (s : State) : Host.Outcome State Fault Refusal :=
  if wireOverMax s.par w then .refused .payloadOverMax else .next (s.answerRecord (codecDecode w))

/-- ENCODE (R141). -/
def execEncode (g : Segment) (s : State) : Host.Outcome State Fault Refusal :=
  if overLimit s.par.payloadMax g.payload.length then .refused .payloadOverMax
  else .next (s.answerWire (codecEncode g))

/-- DECODE (R142). -/
def execDecode (w : Wire) (s : State) : Host.Outcome State Fault Refusal := answerDecode w s

/-- SEG (R101, R142): a wire with a whole header is decoded, whatever its bits (log entry 9). -/
def execSeg (hdr : BitVec 160) (tail : Wire) (s : State) : Host.Outcome State Fault Refusal :=
  answerDecode (wireOfSeg hdr tail) s

/-- SEG.BUILT (R141, R142, R144): the wire that ENCODE makes of the well-formed record with these fields is decoded
(log entry 9). -/
def execSegBuilt (src dst : Port) (sq ak : Word32) (f : FlagSet) (window checksum urgent : BitVec 16)
    (payload : List Byte) (s : State) : Host.Outcome State Fault Refusal :=
  answerDecode (codecEncode (mkSeg src dst sq ak f window checksum urgent payload)) s

end Sys2Proof.Machine
end

