-- ==== Sys2Proof/Machine/Initiator.lean ====
section
/-! DEFINITION. The sequencer in its Initiator role (41_initiator.md): the four commands (R172 to R175), the actions of
the dispatch cases (R180 to R187), the precedence list (30_encoding.md R111) as a chain of rows, each of which falls
to the next where its condition fails (00_scope.md R15), the receive operation (R176), and the meanings. -/

namespace Sys2Proof.Machine

open Sys2Proof

/-- I.OPEN (R172). -/
def openStep (p : Params) (dst : Port) (e : Seq) : SeqResult :=
  if e.state = .closed then
    addressed dst e (done { e with state := .synSent } [emit p e flagsSyn dst e.sndSeq e.rcvAck []])
  else raise .invalidState e

/-- I.SEND (R173). -/
def sendStep (p : Params) (dst : Port) (payload : List Byte) (e : Seq) : SeqResult :=
  if estLike e.state then
    addressed dst e (done { e with sndSeq := e.sndSeq + byteCount payload }
      [emit p e flagsPshAck dst e.sndSeq e.rcvAck payload])
  else raise .notEstablished e

/-- I.CLOSE (R174). -/
def closeStep (p : Params) (dst : Port) (e : Seq) : SeqResult :=
  if estLike e.state then
    addressed dst e (done { e with state := .finWait1 } [emit p e flagsFinAck dst e.sndSeq e.rcvAck []])
  else raise .invalidState e

/-- I.EXPIRE (R175). -/
def expireStep (e : Seq) : SeqResult :=
  if e.state = .timeWait then done { e with state := .closed } [] else raise .invalidState e

/-- The action of I-C1 (R181). -/
def actIC1 (p : Params) (e : Seq) (g : Segment) : SeqResult :=
  addressed g.srcPort e (done { e with rcvAck := g.seq + 1, state := .established }
    [emit p e flagsAck g.srcPort e.sndSeq (g.seq + 1) []])

/-- The action of I-C2 (R182). -/
def actIC2 (e : Seq) : SeqResult := done { e with state := .established } []

/-- The action of I-C3 (R183): the unaddressed check and the reply only under `I_PSH_AUTOACK`. -/
def actIC3 (p : Params) (e : Seq) (g : Segment) : SeqResult :=
  let e' := { e with rcvAck := g.seq + byteCount g.payload, state := .dataReceived }
  if p.iPshAutoack then
    addressed g.srcPort e (done e' [emit p e flagsAck g.srcPort e.sndSeq (g.seq + byteCount g.payload) []])
  else done e' []

/-- The action of I-C4 (R184). -/
def actIC4 (e : Seq) : SeqResult := done { e with state := .finWait2 } []

/-- The action of I-C5 (R185). -/
def actIC5 (p : Params) (e : Seq) (g : Segment) : SeqResult :=
  addressed g.srcPort e (done { e with rcvAck := g.seq + 1, state := .timeWait }
    [emit p e flagsAck g.srcPort e.sndSeq (g.seq + 1) []])

/-- The action of I-C6 (R186). -/
def actIC6 (p : Params) (e : Seq) (g : Segment) : SeqResult :=
  done { e with rcvAck := bareAckUpdate p e.rcvAck g } []

/-- Row I-C7 (R187): anything else, no action. -/
def rowIC7 (e : Seq) : SeqResult := done e []

/-- The list from row I-C6 on (R186). -/
def rowIC6 (p : Params) (e : Seq) (g : Segment) : SeqResult :=
  if isBareAck g.flags then actIC6 p e g else rowIC7 e

/-- The list from row I-C5 on (R185). -/
def rowIC5 (p : Params) (e : Seq) (g : Segment) : SeqResult :=
  if g.flags.fin then actIC5 p e g else rowIC6 p e g

/-- The list from row I-C4 on (R184). -/
def rowIC4 (p : Params) (e : Seq) (g : Segment) : SeqResult :=
  if g.flags.ack ∧ e.state = .finWait1 then actIC4 e else rowIC5 p e g

/-- The list from row I-C3 on (R183). -/
def rowIC3 (p : Params) (e : Seq) (g : Segment) : SeqResult :=
  if g.flags.psh ∧ estLike e.state then actIC3 p e g else rowIC4 p e g

/-- The list from row I-C2 on (R182). -/
def rowIC2 (p : Params) (e : Seq) (g : Segment) : SeqResult :=
  if g.flags.ack ∧ e.state = .synAckReceived then actIC2 e else rowIC3 p e g

/-- The list from row I-C1 on (R181). -/
def rowIC1 (p : Params) (e : Seq) (g : Segment) : SeqResult :=
  if (g.flags.syn ∧ g.flags.ack) ∧ preEst e.state then actIC1 p e g else rowIC2 p e g

/-- The whole list (R111): row I-C0, CLOSED is inert (R180), and the rows after it. -/
def rowIC0 (p : Params) (e : Seq) (g : Segment) : SeqResult :=
  if e.state = .closed then done e [] else rowIC1 p e g

/-- I.RECV at one Initiator (R176): the length test, then the list. -/
def initiatorReceive (p : Params) (w : Wire) (e : Seq) : SeqResult :=
  match codecDecode w with
  | none => raise .malformedSegment e
  | some g => rowIC0 p e g

/-- A received segment enters the Initiator's list at a row. -/
def onInitiatorRow (row : Params → Seq → Segment → SeqResult) (ep : Nat) (g : Segment) (s : State) :
    Host.Outcome State Fault Refusal :=
  onSeqWithin (overLimit s.par.payloadMax g.payload.length) .initiator ep (fun e => row s.par e g) s

/-- I.OPEN (R172). -/
def execIOpen (ep : Nat) (dst : Port) (s : State) : Host.Outcome State Fault Refusal :=
  onSeq .initiator ep (openStep s.par dst) s

/-- I.SEND (R173); a payload over `PAYLOAD_MAX` is refused (R42, log entry 13). -/
def execISend (ep : Nat) (dst : Port) (payload : List Byte) (s : State) : Host.Outcome State Fault Refusal :=
  onSeqWithin (overLimit s.par.payloadMax payload.length) .initiator ep (sendStep s.par dst payload) s

/-- I.CLOSE (R174). -/
def execIClose (ep : Nat) (dst : Port) (s : State) : Host.Outcome State Fault Refusal :=
  onSeq .initiator ep (closeStep s.par dst) s

/-- I.EXPIRE (R175). -/
def execIExpire (ep : Nat) (s : State) : Host.Outcome State Fault Refusal :=
  onSeq .initiator ep expireStep s

/-- I.RECV (R176). -/
def execIRecv (ep : Nat) (w : Wire) (s : State) : Host.Outcome State Fault Refusal :=
  onSeqWithin (wireOverMax s.par w) .initiator ep (initiatorReceive s.par w) s

/-- Dispatch from row I-C0 (R180). -/
def execIC0 (ep : Nat) (g : Segment) (s : State) : Host.Outcome State Fault Refusal :=
  onInitiatorRow rowIC0 ep g s

/-- Dispatch from row I-C1 (R181). -/
def execIC1 (ep : Nat) (g : Segment) (s : State) : Host.Outcome State Fault Refusal :=
  onInitiatorRow rowIC1 ep g s

/-- Dispatch from row I-C2 (R182). -/
def execIC2 (ep : Nat) (g : Segment) (s : State) : Host.Outcome State Fault Refusal :=
  onInitiatorRow rowIC2 ep g s

/-- Dispatch from row I-C3 (R183). -/
def execIC3 (ep : Nat) (g : Segment) (s : State) : Host.Outcome State Fault Refusal :=
  onInitiatorRow rowIC3 ep g s

/-- Dispatch from row I-C4 (R184). -/
def execIC4 (ep : Nat) (g : Segment) (s : State) : Host.Outcome State Fault Refusal :=
  onInitiatorRow rowIC4 ep g s

/-- Dispatch from row I-C5 (R185). -/
def execIC5 (ep : Nat) (g : Segment) (s : State) : Host.Outcome State Fault Refusal :=
  onInitiatorRow rowIC5 ep g s

/-- Dispatch from row I-C6 (R186). -/
def execIC6 (ep : Nat) (g : Segment) (s : State) : Host.Outcome State Fault Refusal :=
  onInitiatorRow rowIC6 ep g s

/-- Dispatch at row I-C7 (R187). -/
def execIC7 (ep : Nat) (g : Segment) (s : State) : Host.Outcome State Fault Refusal :=
  onInitiatorRow (fun _ e _ => rowIC7 e) ep g s

end Sys2Proof.Machine
end

