-- ==== Sys2Proof/Machine/Responder.lean ====
section
/-! DEFINITION. The sequencer in its Responder role (42_responder.md): the actions of the dispatch cases (R212 to R219),
the precedence list (30_encoding.md R112) as a chain of rows, the receive operation (R211), and the meanings. It
accepts no command (R221). -/

namespace Sys2Proof.Machine

open Sys2Proof

/-- The action of R-C1 (R212). -/
def actRC1 (p : Params) (e : Seq) (g : Segment) : SeqResult :=
  addressed g.srcPort e (done { e with rcvAck := g.seq + 1, state := .synReceived }
    [emit p e flagsSynAck g.srcPort e.sndSeq (g.seq + 1) []])

/-- The action of R-C1a (R213). -/
def actRC1a (e : Seq) : SeqResult := done { e with state := .established } []

/-- The action of R-C2 (R214). -/
def actRC2 (p : Params) (e : Seq) (g : Segment) : SeqResult :=
  addressed g.srcPort e (done { e with rcvAck := g.seq + byteCount g.payload, state := .dataReceived }
    [emit p e flagsAck g.srcPort e.sndSeq (g.seq + byteCount g.payload) []])

/-- The action of R-C4 (R216), under either `FIN_POLICY`. -/
def actRC4 (p : Params) (e : Seq) (g : Segment) : SeqResult :=
  let reply := emit p e flagsAck g.srcPort e.sndSeq (g.seq + 1) []
  addressed g.srcPort e
    (match p.finPolicy with
    | .lazy => done { e with rcvAck := g.seq + 1, state := .closeWait, finOwed := true } [reply]
    | .eager =>
      done { e with rcvAck := g.seq + 1, sndSeq := e.sndSeq + 1, state := .lastAck, finOwed := false }
        [reply, emit p e flagsFin g.srcPort e.sndSeq (g.seq + 1) []])

/-- The action of R-C6 (R217). -/
def actRC6 (e : Seq) : SeqResult := done { e with state := .closed } []

/-- The action of R-C5 (R218): the owed FIN. -/
def actRC5 (p : Params) (e : Seq) (g : Segment) : SeqResult :=
  addressed g.srcPort e (done { e with sndSeq := e.sndSeq + 1, state := .lastAck, finOwed := false }
    [emit p e flagsFin g.srcPort e.sndSeq e.rcvAck []])

/-- Row R-C7 (R219): anything else, no action. -/
def rowRC7 (e : Seq) : SeqResult := done e []

/-- The list from row R-C5 on (R218). -/
def rowRC5 (p : Params) (e : Seq) (g : Segment) : SeqResult :=
  if e.finOwed then actRC5 p e g else rowRC7 e

/-- The list from row R-C6 on (R217), evaluated before R-C5 (R112). -/
def rowRC6 (p : Params) (e : Seq) (g : Segment) : SeqResult :=
  if e.state = .lastAck ∧ g.flags.ack ∧ g.ack = e.sndSeq then actRC6 e else rowRC5 p e g

/-- The list from row R-C4 on (R216). -/
def rowRC4 (p : Params) (e : Seq) (g : Segment) : SeqResult :=
  if estLike e.state ∧ g.flags.fin then actRC4 p e g else rowRC6 p e g

/-- The dead case R-C3 (R215): it never matches, so the row after it decides. -/
def rowRC3 (p : Params) (e : Seq) (g : Segment) : SeqResult := rowRC4 p e g

/-- The list from row R-C2 on (R214). -/
def rowRC2 (p : Params) (e : Seq) (g : Segment) : SeqResult :=
  if estLike e.state ∧ g.flags.psh then actRC2 p e g else rowRC3 p e g

/-- The list from row R-C1a on (R213). -/
def rowRC1a (p : Params) (e : Seq) (g : Segment) : SeqResult :=
  if e.state = .synReceived ∧ g.flags.ack then actRC1a e else rowRC2 p e g

/-- The whole list (R112): row R-C1 (R212) and the rows after it. -/
def rowRC1 (p : Params) (e : Seq) (g : Segment) : SeqResult :=
  if e.state = .listening ∧ g.flags.syn then actRC1 p e g else rowRC1a p e g

/-- R.RECV at one Responder (R211): the length test, then the list. -/
def responderReceive (p : Params) (w : Wire) (e : Seq) : SeqResult :=
  match codecDecode w with
  | none => raise .malformedSegment e
  | some g => rowRC1 p e g

/-- A received segment enters the Responder's list at a row. -/
def onResponderRow (row : Params → Seq → Segment → SeqResult) (ep : Nat) (g : Segment) (s : State) :
    Host.Outcome State Fault Refusal :=
  onSeqWithin (overLimit s.par.payloadMax g.payload.length) .responder ep (fun e => row s.par e g) s

/-- R.RECV (R211). -/
def execRRecv (ep : Nat) (w : Wire) (s : State) : Host.Outcome State Fault Refusal :=
  onSeqWithin (wireOverMax s.par w) .responder ep (responderReceive s.par w) s

/-- Dispatch from row R-C1 (R212). -/
def execRC1 (ep : Nat) (g : Segment) (s : State) : Host.Outcome State Fault Refusal :=
  onResponderRow rowRC1 ep g s

/-- Dispatch from row R-C1a (R213). -/
def execRC1a (ep : Nat) (g : Segment) (s : State) : Host.Outcome State Fault Refusal :=
  onResponderRow rowRC1a ep g s

/-- Dispatch from row R-C2 (R214). -/
def execRC2 (ep : Nat) (g : Segment) (s : State) : Host.Outcome State Fault Refusal :=
  onResponderRow rowRC2 ep g s

/-- Dispatch from row R-C3 (R215). -/
def execRC3 (ep : Nat) (g : Segment) (s : State) : Host.Outcome State Fault Refusal :=
  onResponderRow rowRC3 ep g s

/-- Dispatch from row R-C4 (R216). -/
def execRC4 (ep : Nat) (g : Segment) (s : State) : Host.Outcome State Fault Refusal :=
  onResponderRow rowRC4 ep g s

/-- Dispatch from row R-C6 (R217). -/
def execRC6 (ep : Nat) (g : Segment) (s : State) : Host.Outcome State Fault Refusal :=
  onResponderRow rowRC6 ep g s

/-- Dispatch from row R-C5 (R218). -/
def execRC5 (ep : Nat) (g : Segment) (s : State) : Host.Outcome State Fault Refusal :=
  onResponderRow rowRC5 ep g s

/-- Dispatch at row R-C7 (R219). -/
def execRC7 (ep : Nat) (g : Segment) (s : State) : Host.Outcome State Fault Refusal :=
  onResponderRow (fun _ e _ => rowRC7 e) ep g s

end Sys2Proof.Machine
end

