-- ==== Sys2Proof/Machine/Link.lean ====
section
/-! DEFINITION. The platform link (43_substrate.md): registration (R241, R242), transmit (R243), delivery (R244) and
drain (R245). -/

namespace Sys2Proof.Machine

open Sys2Proof

/-- An instance that exists and has the role a registration asks for (R241: "a model should type the operand so that
`itab` holds only Initiators"; log entries 11 and 12). -/
def registrable (role : Role) (inst : Nat) (s : State) (s' : State) : Host.Outcome State Fault Refusal :=
  match s.seqs[inst]? with
  | none => .refused .noSuchInstance
  | some e => if e.role = role then .next s' else .refused .illTypedInstance

/-- N.REGI (R241). -/
def execNRegi (port : Port) (inst : Nat) (s : State) : Host.Outcome State Fault Refusal :=
  registrable .initiator inst s (State.answer { s with itab := tableSet s.itab port inst } .ok)

/-- N.REGR (R242). -/
def execNRegr (port : Port) (inst : Nat) (s : State) : Host.Outcome State Fault Refusal :=
  registrable .responder inst s (State.answer { s with rtab := tableSet s.rtab port inst } .ok)

/-- N.XMIT (R243): append at the tail, nothing checked but the capacity (log entry 13). -/
def execNXmit (w : Wire) (src dst : Port) (s : State) : Host.Outcome State Fault Refusal :=
  if queueHasRoom s 1 then
    .next (State.answer { s with q := s.q ++ [{ wire := w, srcPort := src, dstPort := dst }] } .ok)
  else .refused .queueFull

/-- The owner of a destination port: the responder table first, else the initiator table (R80, R244). -/
def route (s : State) (dst : Port) : Option (Role × Nat) :=
  match tableGet s.rtab dst with
  | some n => some (.responder, n)
  | none => (tableGet s.itab dst).map fun n => (.initiator, n)

/-- The receive operation of a role (R51). -/
def receiveOf : Role → Params → Wire → Seq → SeqResult
  | .initiator => initiatorReceive
  | .responder => responderReceive

/-- What one delivery ends in: the queue was empty, the state after it with its status, or a refusal. -/
inductive Delivery where
  | nothing
  | delivered (s : State) (st : Status)
  | stopped (r : Refusal)
  deriving DecidableEq, Repr

/-- The receive step of a delivery: the owner's registers are written, its replies go to the tail of the queue
(R244, R247). `s` has lost the head already. -/
def deliverTo (role : Role) (inst : Nat) (w : Wire) (s : State) : Delivery :=
  match s.seqs[inst]? with
  | none => .stopped .noSuchInstance
  | some e =>
    if e.role ≠ role then .stopped .illTypedInstance
    else if wireOverMax s.par w then .stopped .payloadOverMax
    else if ownState e.role e.state = false then .stopped .foreignState
    else
      let r := receiveOf role s.par w e
      if queueHasRoom s r.tx.length then
        .delivered { s with seqs := s.seqs.set inst r.seq, q := s.q ++ r.tx } r.status
      else .stopped .queueFull

/-- One delivery (R244): the head is removed before anything else happens; a record without an owner is dropped. -/
def deliverNext (s : State) : Delivery :=
  match s.q with
  | [] => .nothing
  | r :: rest =>
    match route s r.dstPort with
    | none => .delivered { s with q := rest } .unknownDestination
    | some (role, inst) => deliverTo role inst r.wire { s with q := rest }

/-- N.DELIVER (R244); on an empty queue no effect and OK. -/
def execNDeliver (s : State) : Host.Outcome State Fault Refusal :=
  match deliverNext s with
  | .nothing => .next (s.answer .ok)
  | .delivered s' st => .next (s'.answer st)
  | .stopped r => .refused r

/-- N.DRAIN (R245), `while q is not empty: N.DELIVER()`, which "is not atomic: it is the sequence of its N.DELIVER steps":
one step is one turn of the loop, with that delivery's status. Where the queue is not empty after it the drain stays
under way, and the machine's next step makes the next turn; with nothing to deliver the loop has ended, status OK (log
entry 15). -/
def execNDrain (s : State) : Host.Outcome State Fault Refusal :=
  match deliverNext s with
  | .nothing => .next (State.answer { s with draining := false } .ok)
  | .delivered s' st => .next (State.answer { s' with draining := !s'.q.isEmpty } st)
  | .stopped r => .refused r

end Sys2Proof.Machine
end

