-- ==== Sys2Proof/Machine/Reserved.lean ====
section
/-! DEFINITION. The reserved operation numbers (30_encoding.md R110): no state change, nothing emitted, InvalidState. -/

namespace Sys2Proof.Machine

open Sys2Proof

/-- A request that names no operation its receiver has (R110, R275). -/
def answerInvalid (s : State) : Host.Outcome State Fault Refusal := .next (s.answer .invalidState)

/-- Operation number 0x0 (R110). -/
def execReserved0 (s : State) : Host.Outcome State Fault Refusal := answerInvalid s

/-- Operation number 0x3 (R110). -/
def execReserved3 (s : State) : Host.Outcome State Fault Refusal := answerInvalid s

/-- Operation number 0xF (R110). -/
def execReservedF (s : State) : Host.Outcome State Fault Refusal := answerInvalid s

end Sys2Proof.Machine
end

