-- ==== Sys2Proof/Machine/Dispatch.lean ====
section
/-! DEFINITION. exec: one arm per instruction, each one direct call of its meaning. -/

namespace Sys2Proof.Machine

open Sys2Proof

def exec (i : Instr) (s : State) : Host.Outcome State Fault Refusal :=
  match i with
  -- the codec
  | .encode g => Sys2Proof.Machine.execEncode g s
  | .decode w => Sys2Proof.Machine.execDecode w s
  -- the Initiator's commands and its receive operation
  | .iOpen ep dst => Sys2Proof.Machine.execIOpen ep dst s
  | .iSend ep dst payload => Sys2Proof.Machine.execISend ep dst payload s
  | .iClose ep dst => Sys2Proof.Machine.execIClose ep dst s
  | .iExpire ep => Sys2Proof.Machine.execIExpire ep s
  | .iRecv ep w => Sys2Proof.Machine.execIRecv ep w s
  -- the Responder's receive operation
  | .rRecv ep w => Sys2Proof.Machine.execRRecv ep w s
  -- the link
  | .nRegi port inst => Sys2Proof.Machine.execNRegi port inst s
  | .nRegr port inst => Sys2Proof.Machine.execNRegr port inst s
  | .nXmit w src dst => Sys2Proof.Machine.execNXmit w src dst s
  | .nDeliver => Sys2Proof.Machine.execNDeliver s
  | .nDrain => Sys2Proof.Machine.execNDrain s
  -- reserved operation numbers
  | .reserved0 => Sys2Proof.Machine.execReserved0 s
  | .reserved3 => Sys2Proof.Machine.execReserved3 s
  | .reservedF => Sys2Proof.Machine.execReservedF s
  -- the segment formats
  | .seg hdr tail => Sys2Proof.Machine.execSeg hdr tail s
  | .segBuilt src dst sq ak f wi ck up payload => Sys2Proof.Machine.execSegBuilt src dst sq ak f wi ck up payload s
  -- the Initiator's dispatch cases
  | .iC0 ep g => Sys2Proof.Machine.execIC0 ep g s
  | .iC1 ep g => Sys2Proof.Machine.execIC1 ep g s
  | .iC2 ep g => Sys2Proof.Machine.execIC2 ep g s
  | .iC3 ep g => Sys2Proof.Machine.execIC3 ep g s
  | .iC4 ep g => Sys2Proof.Machine.execIC4 ep g s
  | .iC5 ep g => Sys2Proof.Machine.execIC5 ep g s
  | .iC6 ep g => Sys2Proof.Machine.execIC6 ep g s
  | .iC7 ep g => Sys2Proof.Machine.execIC7 ep g s
  -- the Responder's dispatch cases
  | .rC1 ep g => Sys2Proof.Machine.execRC1 ep g s
  | .rC1a ep g => Sys2Proof.Machine.execRC1a ep g s
  | .rC2 ep g => Sys2Proof.Machine.execRC2 ep g s
  | .rC3 ep g => Sys2Proof.Machine.execRC3 ep g s
  | .rC4 ep g => Sys2Proof.Machine.execRC4 ep g s
  | .rC6 ep g => Sys2Proof.Machine.execRC6 ep g s
  | .rC5 ep g => Sys2Proof.Machine.execRC5 ep g s
  | .rC7 ep g => Sys2Proof.Machine.execRC7 ep g s

end Sys2Proof.Machine
end

