-- ==== Sys2Proof/WellFormed.lean ====
section
/-! DEFINITION. Which instructions have an encoding: the limits of the script's byte form (30_encoding.md R115: N and L
at most 65535, the instance number one byte, the commands and receives addressed to the instances the script is bound
to), the SEG row apart from the SEG.BUILT pattern (R117), and the flag condition of a dispatch row (R111, R112). -/

namespace Sys2Proof

open Sys2Proof.Machine

/-- `WellFormed b i`: instruction `i` has an encoding, in a script bound to the instances `b` where it is an
operation. The dead case R-C3 has none (R215). -/
def WellFormed (b : Binding) : Instr → Bool
  | .encode g => decide (g.payload.length < 65536)
  | .decode w => decide (w.length < 65536)
  | .iOpen ep _ => ep == b.ini
  | .iSend ep _ payload => ep == b.ini && decide (payload.length < 65536)
  | .iClose ep _ => ep == b.ini
  | .iExpire ep => ep == b.ini
  | .iRecv ep w => ep == b.ini && decide (w.length < 65536)
  | .rRecv ep w => ep == b.rsp && decide (w.length < 65536)
  | .nRegi _ inst => decide (inst < 256)
  | .nRegr _ inst => decide (inst < 256)
  | .nXmit w _ _ => decide (w.length < 65536)
  | .nDeliver => true
  | .nDrain => true
  | .reserved0 => true
  | .reserved3 => true
  | .reservedF => true
  | .seg hdr tail => !isBuiltWire (wireOfSeg hdr tail)
  | .segBuilt _ _ _ _ _ _ _ _ _ => true
  | .iC0 _ g => rowFlagsMatch .iC0 (flags9 g.flags)
  | .iC1 _ g => rowFlagsMatch .iC1 (flags9 g.flags)
  | .iC2 _ g => rowFlagsMatch .iC2 (flags9 g.flags)
  | .iC3 _ g => rowFlagsMatch .iC3 (flags9 g.flags)
  | .iC4 _ g => rowFlagsMatch .iC4 (flags9 g.flags)
  | .iC5 _ g => rowFlagsMatch .iC5 (flags9 g.flags)
  | .iC6 _ g => rowFlagsMatch .iC6 (flags9 g.flags)
  | .iC7 _ g => rowFlagsMatch .iC7 (flags9 g.flags)
  | .rC1 _ g => rowFlagsMatch .rC1 (flags9 g.flags)
  | .rC1a _ g => rowFlagsMatch .rC1a (flags9 g.flags)
  | .rC2 _ g => rowFlagsMatch .rC2 (flags9 g.flags)
  | .rC3 _ g => rowFlagsMatch .rC3 (flags9 g.flags)
  | .rC4 _ g => rowFlagsMatch .rC4 (flags9 g.flags)
  | .rC6 _ g => rowFlagsMatch .rC6 (flags9 g.flags)
  | .rC5 _ g => rowFlagsMatch .rC5 (flags9 g.flags)
  | .rC7 _ g => rowFlagsMatch .rC7 (flags9 g.flags)

end Sys2Proof
end

