-- ==== Sys2Proof/Decode.lean ====
section
/-! DEFINITION. From requests to instructions and back: the byte form of script lines (30_encoding.md R115), the command
interface (R108, R110), the dispatch patterns of a received segment (R111, R112), the segment formats on the codec's
decoding side (R101, R117), the encoder, and the reading of a word of spec/opcode_table.json. -/

namespace Sys2Proof

open Sys2Proof.Machine

/-! ### Dispatch patterns -/

/-- The instruction of a dispatch case, at sequencer `ep`, for a decoded segment. -/
def RxCase.instr (ep : Nat) (g : Segment) : RxCase → Instr
  | .iC0  => .iC0 ep g
  | .iC1  => .iC1 ep g
  | .iC2  => .iC2 ep g
  | .iC3  => .iC3 ep g
  | .iC4  => .iC4 ep g
  | .iC5  => .iC5 ep g
  | .iC6  => .iC6 ep g
  | .iC7  => .iC7 ep g
  | .rC1  => .rC1 ep g
  | .rC1a => .rC1a ep g
  | .rC2  => .rC2 ep g
  | .rC3  => .rC3 ep g
  | .rC4  => .rC4 ep g
  | .rC6  => .rC6 ep g
  | .rC5  => .rC5 ep g
  | .rC7  => .rC7 ep g

/-- The state condition of a dispatch row (R111, R112): the labels it asks for, `none` for "any". -/
def rowStates : RxCase → Option (List ConnState)
  | .iC0  => some [.closed]
  | .iC1  => some [.synSent, .synAckReceived]
  | .iC2  => some [.synAckReceived]
  | .iC3  => some [.established, .dataReceived]
  | .iC4  => some [.finWait1]
  | .iC5  => none
  | .iC6  => none
  | .iC7  => none
  | .rC1  => some [.listening]
  | .rC1a => some [.synReceived]
  | .rC2  => some [.established, .dataReceived]
  | .rC3  => some []
  | .rC4  => some [.established, .dataReceived]
  | .rC6  => some [.lastAck]
  | .rC5  => none
  | .rC7  => none

/-- The "other condition" of a dispatch row (R112): R-C6 compares `seg.ack` with `snd_seq`, R-C5 needs `fin_owed`. -/
def rowOther (e : Seq) (g : Segment) : RxCase → Bool
  | .rC6 => g.ack == e.sndSeq
  | .rC5 => e.finOwed
  | _ => true

/-- The rows of a role in precedence order (R111, R112; opcode_table.json `order`, in which R-C3 has none). -/
def rowsOf : Role → List RxCase
  | .initiator => [.iC0, .iC1, .iC2, .iC3, .iC4, .iC5, .iC6, .iC7]
  | .responder => [.rC1, .rC1a, .rC2, .rC4, .rC6, .rC5, .rC7]

/-- A row matches: its flag, state and other conditions hold (R111, R112). `v` is the flags field as it stands on the
wire, padding included. -/
def rowMatches (e : Seq) (v : BitVec 9) (g : Segment) (c : RxCase) : Bool :=
  rowFlagsMatch c v && (match rowStates c with
    | none => true
    | some l => l.contains e.state) && rowOther e g c

/-- The last row of a role's list, which matches every segment (R187, R219). -/
def lastRow : Role → RxCase
  | .initiator => .iC7
  | .responder => .rC7

/-- The first row that matches (R15). -/
def selectCase (e : Seq) (v : BitVec 9) (g : Segment) : RxCase :=
  ((rowsOf e.role).find? (rowMatches e v g)).getD (lastRow e.role)

/-- The receive operation of a role on a wire (R51). -/
def recvInstr (ep : Nat) (w : Wire) : Role → Instr
  | .initiator => .iRecv ep w
  | .responder => .rRecv ep w

/-- The instruction that a wire on the receive interface of sequencer `ep` is (R100 (b), R117): the dispatch case its
flags and the sequencer's registers select; a wire too short to have flags is the bare receive operation, which answers
MalformedSegment (R111, R112: "Before the list …"). -/
def decodeReceive (seqs : List Seq) (ep : Nat) (w : Wire) : Instr :=
  match seqs[ep]? with
  | none => .iRecv ep w
  | some e =>
    match codecDecode w with
    | none => recvInstr ep w e.role
    | some g => (selectCase e (wireFlags9 w) g).instr ep g

/-! ### The codec's decoding side -/

/-- The instruction that a wire on the codec's decoding side is: SEG.BUILT or SEG by the header's pattern (R117), or,
for a wire without a whole header, DECODE. -/
def decodeCodecWire (w : Wire) : Instr :=
  if w.length < 160 then .decode w
  else if isBuiltWire w then
    let g := decodeFields w
    .segBuilt g.srcPort g.dstPort g.seq g.ack g.flags g.window g.checksum g.urgent g.payload
  else .seg (hdrOfWire w) (w.drop 160)

/-! ### The command interface -/

/-- The instruction of a command request (R50, R108, R110): a command, a reserved number, or none. -/
def decodeCommand (ep : Nat) (op : BitVec 4) (dst : Port) (payload : List Byte) : Except DecodeError Instr :=
  match op.toNat with
  | 0x0 => .ok .reserved0
  | 0x3 => .ok .reserved3
  | 0x4 => .ok (.iOpen ep dst)
  | 0x5 => .ok (.iSend ep dst payload)
  | 0x6 => .ok (.iClose ep dst)
  | 0x7 => .ok (.iExpire ep)
  | 0xF => .ok .reservedF
  | _ => .error .notACommand

/-! ### The byte form of script lines -/

/-- A parsed line, or the line was too short. -/
def orTruncated : Option (Instr × List Byte) → Except DecodeError (Instr × List Byte)
  | some r => .ok r
  | none => .error .truncatedLine

/-- A line with a wire operand: short, or with bits set behind the wire in its last byte, or the instruction (R115). -/
def wireLine (f : Wire → Instr) : Option (Wire × Bool × List Byte) → Except DecodeError (Instr × List Byte)
  | some (w, true, rest) => .ok (f w, rest)
  | some (_, false, _) => .error .paddingNotZero
  | none => .error .truncatedLine

/-- The operands of ENCODE in the byte form (R115): N, the 20 header bytes, N payload bytes. -/
def encodeLineOperands (bs : List Byte) : Except DecodeError (Instr × List Byte) :=
  match (takeBe16 bs).bind fun r => takeBytes (20 + r.1) r.2 with
  | none => .error .truncatedLine
  | some (body, rest) =>
    let w := wireOfBytes body
    if memRead w 109 3 == 0 then .ok (.encode (decodeFields w), rest) else .error .paddingNotZero

/-- The operands after byte 0 of a line, by operation number (R115). DESIGN CHOICE (log entry 18): R115 gives no form for
a line with a reserved number; it is byte 0 alone, with no operand, and the next byte begins a new line. -/
def decodeOperands (b : Binding) (op : Nat) (bs : List Byte) : Except DecodeError (Instr × List Byte) :=
  match op with
  | 0x0 => .ok (.reserved0, bs)
  | 0x1 => encodeLineOperands bs
  | 0x2 => wireLine .decode (takeWire bs)
  | 0x3 => .ok (.reserved3, bs)
  | 0x4 => orTruncated ((takePort bs).map fun r => (.iOpen b.ini r.1, r.2))
  | 0x5 => orTruncated ((takePort bs).bind fun r => (takeBe16 r.2).bind fun n =>
      (takeBytes n.1 n.2).map fun t => (.iSend b.ini r.1 t.1, t.2))
  | 0x6 => orTruncated ((takePort bs).map fun r => (.iClose b.ini r.1, r.2))
  | 0x7 => .ok (.iExpire b.ini, bs)
  | 0x8 => wireLine (.iRecv b.ini) (takeWire bs)
  | 0x9 => wireLine (.rRecv b.rsp) (takeWire bs)
  | 0xA => orTruncated ((takePort bs).bind fun r => (takeInst r.2).map fun t => (.nRegi r.1 t.1, t.2))
  | 0xB => orTruncated ((takePort bs).bind fun r => (takeInst r.2).map fun t => (.nRegr r.1 t.1, t.2))
  | 0xC =>
    match (takePort bs).bind fun r => (takePort r.2).map fun t => (r.1, t.1, t.2) with
    | none => .error .truncatedLine
    | some (src, dst, rest) => wireLine (fun w => .nXmit w src dst) (takeWire rest)
  | 0xD => .ok (.nDeliver, bs)
  | 0xE => .ok (.nDrain, bs)
  | 0xF => .ok (.reservedF, bs)
  | _ => .error .notAnOperationByte

/-- The first line of a script's bytes and the bytes after it (R115). -/
def decodeLine (b : Binding) : List Byte → Except DecodeError (Instr × List Byte)
  | [] => .error .emptyLine
  | op :: rest => decodeOperands b op.toNat rest

/-! ### Requests -/

/-- A request's instruction, and the request that remains where a script has further lines. -/
def decodeRequest (seqs : List Seq) : Request → Except DecodeError (Instr × Option Request)
  | .script b bs =>
    match decodeLine b bs with
    | .error e => .error e
    | .ok (i, []) => .ok (i, none)
    | .ok (i, c :: rest) => .ok (i, some (.script b (c :: rest)))
  | .command ep op dst payload =>
    match decodeCommand ep op dst payload with
    | .error e => .error e
    | .ok i => .ok (i, none)
  | .receive ep w => .ok (decodeReceive seqs ep w, none)
  | .record g => .ok (.encode g, none)
  | .wire w => .ok (decodeCodecWire w, none)
  | .registerInitiator port inst => .ok (.nRegi port inst, none)
  | .registerResponder port inst => .ok (.nRegr port inst, none)
  | .transmit w src dst => .ok (.nXmit w src dst, none)
  | .deliverNext => .ok (.nDeliver, none)
  | .drainAll => .ok (.nDrain, none)

/-! ### The encoder -/

/-- The byte form of an operation's script line (R115), of a reserved number byte 0 alone (DESIGN CHOICE, log entry 18);
the segment formats and dispatch cases have none. -/
def encodeLine : Instr → Option (List Byte)
  | .reserved0 => some [0x00]
  | .encode g => some (0x01 :: be16 g.payload.length ++ bytesOfWire (codecEncode g))
  | .decode w => some (0x02 :: wireBytes w)
  | .reserved3 => some [0x03]
  | .iOpen _ dst => some (0x04 :: portBytes dst)
  | .iSend _ dst payload => some (0x05 :: portBytes dst ++ be16 payload.length ++ payload)
  | .iClose _ dst => some (0x06 :: portBytes dst)
  | .iExpire _ => some [0x07]
  | .iRecv _ w => some (0x08 :: wireBytes w)
  | .rRecv _ w => some (0x09 :: wireBytes w)
  | .nRegi port inst => some (0x0A :: portBytes port ++ [BitVec.ofNat 8 inst])
  | .nRegr port inst => some (0x0B :: portBytes port ++ [BitVec.ofNat 8 inst])
  | .nXmit w src dst => some (0x0C :: portBytes src ++ portBytes dst ++ wireBytes w)
  | .nDeliver => some [0x0D]
  | .nDrain => some [0x0E]
  | .reservedF => some [0x0F]
  | .seg _ _ => none
  | .segBuilt _ _ _ _ _ _ _ _ _ => none
  | .iC0 _ _ => none
  | .iC1 _ _ => none
  | .iC2 _ _ => none
  | .iC3 _ _ => none
  | .iC4 _ _ => none
  | .iC5 _ _ => none
  | .iC6 _ _ => none
  | .iC7 _ _ => none
  | .rC1 _ _ => none
  | .rC1a _ _ => none
  | .rC2 _ _ => none
  | .rC3 _ _ => none
  | .rC4 _ _ => none
  | .rC6 _ _ => none
  | .rC5 _ _ => none
  | .rC7 _ _ => none

/-- The script request of one operation. -/
def scriptRequest (b : Binding) (i : Instr) : Request := .script b ((encodeLine i).getD [])

/-- The request that carries an instruction: a script line, a wire at the codec, or the wire of a dispatch case's
segment at its sequencer's receive interface. -/
def encode (b : Binding) : Instr → Request
  | .encode g => scriptRequest b (.encode g)
  | .decode w => scriptRequest b (.decode w)
  | .iOpen ep dst => scriptRequest b (.iOpen ep dst)
  | .iSend ep dst payload => scriptRequest b (.iSend ep dst payload)
  | .iClose ep dst => scriptRequest b (.iClose ep dst)
  | .iExpire ep => scriptRequest b (.iExpire ep)
  | .iRecv ep w => scriptRequest b (.iRecv ep w)
  | .rRecv ep w => scriptRequest b (.rRecv ep w)
  | .nRegi port inst => scriptRequest b (.nRegi port inst)
  | .nRegr port inst => scriptRequest b (.nRegr port inst)
  | .nXmit w src dst => scriptRequest b (.nXmit w src dst)
  | .nDeliver => scriptRequest b .nDeliver
  | .nDrain => scriptRequest b .nDrain
  | .reserved0 => scriptRequest b .reserved0
  | .reserved3 => scriptRequest b .reserved3
  | .reservedF => scriptRequest b .reservedF
  | .seg hdr tail => .wire (wireOfSeg hdr tail)
  | .segBuilt src dst sq ak f window checksum urgent payload =>
    .wire (codecEncode (mkSeg src dst sq ak f window checksum urgent payload))
  | .iC0 ep g => .receive ep (codecEncode g)
  | .iC1 ep g => .receive ep (codecEncode g)
  | .iC2 ep g => .receive ep (codecEncode g)
  | .iC3 ep g => .receive ep (codecEncode g)
  | .iC4 ep g => .receive ep (codecEncode g)
  | .iC5 ep g => .receive ep (codecEncode g)
  | .iC6 ep g => .receive ep (codecEncode g)
  | .iC7 ep g => .receive ep (codecEncode g)
  | .rC1 ep g => .receive ep (codecEncode g)
  | .rC1a ep g => .receive ep (codecEncode g)
  | .rC2 ep g => .receive ep (codecEncode g)
  | .rC3 ep g => .receive ep (codecEncode g)
  | .rC4 ep g => .receive ep (codecEncode g)
  | .rC6 ep g => .receive ep (codecEncode g)
  | .rC5 ep g => .receive ep (codecEncode g)
  | .rC7 ep g => .receive ep (codecEncode g)

/-! ### Words of spec/opcode_table.json -/

/-- How many operand bytes a script line with operands of zeros has after byte 0 (R115). -/
def zeroOperandBytes : Nat → Nat
  | 0x1 => 22
  | 0x2 => 2
  | 0x4 => 2
  | 0x5 => 4
  | 0x6 => 2
  | 0x8 => 2
  | 0x9 => 2
  | 0xA => 3
  | 0xB => 3
  | 0xC => 6
  | _ => 0

/-- The sequencer and the label its `state` register holds for a table row of dispatch patterns: a row's flags alone do
not say which row is meant, "the state register … selects which dispatch case a received segment takes" (R34), so a
flags word is read in the first context in which some row with those flags is the first to match (log entry 7). Rows
of up to 8 bits show bits 7:0 of `flags9`. -/
def tableContext (nbits w : Nat) : Nat × ConnState :=
  if nbits = 8 ∧ w = 0x80 then (0, .synAckReceived)
  else if w &&& 0x1F8 = 0x080 then (0, .established)
  else if w &&& 0x090 = 0x090 then (0, .synSent)
  else if w &&& 0x080 = 0x080 then (0, .finWait1)
  else if w &&& 0x040 = 0x040 then (0, .established)
  else if w &&& 0x010 = 0x010 then (1, .listening)
  else if w &&& 0x008 = 0x008 then (0, .finWait2)
  else (0, .closed)

/-- The wire of a bare header with the given flags field (R101: `flags9` is `HDR[56:48]`). -/
def flagsWire (w : Nat) : Wire := bitsN (BitVec.ofNat 160 (w % 512 * 2 ^ 48))

/-- A table word is an operation's byte 0 (rows of format OP). -/
def isOpWord (nbits w : Nat) : Bool := nbits ≤ 8 && w < 16

/-- The request a word of spec/opcode_table.json stands for: the byte form with operands of zeros for a row of format
OP, a wire at the codec for the 160-bit rows of format SEG (bit 0 is `HDR[0]`), a bare header with those flags at a
receive interface for the rows of formats I.RX and R.RX. -/
def requestOfWord (nbits w : Nat) : Option Request :=
  if isOpWord nbits w then
    some (.script Binding.standard (BitVec.ofNat 8 w :: List.replicate (zeroOperandBytes w) 0))
  else if nbits = 160 then some (.wire (bitsN (BitVec.ofNat 160 w)))
  else if nbits = 8 ∨ nbits = 16 then some (.receive (tableContext nbits w).1 (flagsWire w))
  else none

/-- The sequencers with the `state` register that selects a table word's dispatch row. -/
def withTableContext (nbits w : Nat) (seqs : List Seq) : List Seq :=
  if isOpWord nbits w ∨ nbits = 160 then seqs
  else seqs.modify (tableContext nbits w).1 fun e => { e with state := (tableContext nbits w).2 }

/-- The instruction the decoder reads from a word of spec/opcode_table.json. -/
def decodeTableWord (nbits w : Nat) : Option Instr :=
  match requestOfWord nbits w with
  | none => none
  | some r =>
    match decodeRequest (withTableContext nbits w (SeqConfig.pair.map Seq.reset)) r with
    | .ok (i, _) => some i
    | .error _ => none

end Sys2Proof
end

