-- ==== Sys2Proof/Machine/Fetch.lean ====
section
/-! DEFINITION. Fetching: which request is next and what remains of it, what a request that is no instruction is
answered, and placing a table word where the next step fetches. -/

namespace Sys2Proof.Machine

open Sys2Proof

/-- The inbox after a line of its first request was taken: what remains of that request stands first. -/
def inboxAfter (remaining : Option Request) (rest : List Request) : List Request :=
  match remaining with
  | some r => r :: rest
  | none => rest

/-- The answer to a request that is no instruction: InvalidState for a command number of another interface (R110), a
refusal for a script line that is none (log entry 16). -/
def rejectRequest (e : DecodeError) (s : State) : Host.Outcome State Fault Refusal :=
  match e with
  | .notACommand => .next (s.answer .invalidState)
  | .emptyLine => .refused (.badScriptLine e)
  | .notAnOperationByte => .refused (.badScriptLine e)
  | .truncatedLine => .refused (.badScriptLine e)
  | .paddingNotZero => .refused (.badScriptLine e)

/-- Put a table word in front of the inbox, with nothing left to hand over, no drain under way and, for a dispatch
row, the `state` register that selects it (log entry 7). -/
def placeWord (nbits w : Nat) (s : State) : State :=
  match requestOfWord nbits w with
  | none => s
  | some r =>
    { s with handover := [], draining := false, inbox := r :: s.inbox, seqs := withTableContext nbits w s.seqs }

end Sys2Proof.Machine
end

