-- ==== Sys2Proof/Machine/Step.lean ====
section
/-! DEFINITION. One step of the whole machine: a pending hand-over first (43_substrate.md R246: "before any other
step"), then the next delivery of an N.DRAIN that is under way (R245: "nothing else happens in between"), else the next
request of the host (00_scope.md R6). -/

namespace Sys2Proof.Machine

open Sys2Proof

/-- The next request of the inbox is fetched, decoded and executed; with none pending nothing can happen (R288, R316;
log entry 6). -/
def stepRequest (s : State) : Host.Outcome State Fault Refusal :=
  match s.inbox with
  | [] => .fault .idle
  | r :: rest =>
    match decodeRequest s.seqs r with
    | .ok (i, remaining) => exec i { s with inbox := inboxAfter remaining rest }
    | .error e => rejectRequest e { s with inbox := rest }

/-- One step. -/
def step (s : State) : Host.Outcome State Fault Refusal :=
  match s.handover with
  | r :: rest => exec (.nXmit r.wire r.srcPort r.dstPort) { s with handover := rest }
  | [] => if s.draining then exec .nDrain s else stepRequest s

/-- The state with a table word where the next step fetches. -/
def State.withFetchWord (s : State) (nbits w : Nat) : State := placeWord nbits w s

end Sys2Proof.Machine
end

