-- ==== Sys2Proof/Safety.lean ====
section
/-! DEFINITION. What the claims call a good state: the invariants of 10_state.md R56, the typing of the port tables
(R44), the shape of emitted records (41_initiator.md R171), the ranks of the lifecycles (R191, 42_responder.md R222),
and quiescence (70_reset_and_hazards.md R316). -/

namespace Sys2Proof.Machine

open Sys2Proof

/-- The labels an Initiator reaches from reset (R56 (a)). -/
def initiatorReachable (c : ConnState) : Bool :=
  c == .closed || c == .synSent || c == .established || c == .dataReceived || c == .finWait1 || c == .finWait2 ||
    c == .timeWait

/-- The labels a Responder reaches from reset (R56 (b)). -/
def responderReachable (c : ConnState) : Bool :=
  c == .listening || c == .synReceived || c == .established || c == .dataReceived || c == .closeWait ||
    c == .lastAck || c == .closed

/-- R56 (a) and (c) for an Initiator. -/
def initiatorInv (e : Seq) : Prop := initiatorReachable e.state = true ∧ e.finOwed = false

/-- A Responder that has emitted its FIN (R56 (d), R222). -/
def finEmitted (c : ConnState) : Bool := c == .lastAck || c == .closed

/-- R56 (b), (c) and (d) for a Responder: `fin_owed` is set exactly in CLOSE-WAIT, and only under LAZY; `snd_seq` is
`ISS` before its FIN and `ISS +32 1` after. -/
def responderInv (p : Params) (e : Seq) : Prop :=
  responderReachable e.state = true ∧
  (e.finOwed = true ↔ e.state = .closeWait) ∧
  (e.finOwed = true → p.finPolicy = .lazy) ∧
  e.sndSeq = (if finEmitted e.state then e.iss + 1 else e.iss)

/-- R56 for a sequencer of either role. -/
def seqInv (p : Params) (e : Seq) : Prop :=
  match e.role with
  | .initiator => initiatorInv e
  | .responder => responderInv p e

/-- Every sequencer satisfies R56. -/
def sequencersOk (s : State) : Prop := ∀ e ∈ s.seqs, seqInv s.par e

/-- Every sequencer holds a label of its own role (R223 excludes the others). -/
def labelsOk (s : State) : Prop := ∀ e ∈ s.seqs, ownState e.role e.state = true

/-- A table in canonical form that holds instances of one role only (R44). -/
def tableOk (role : Role) (t : PortTable) (seqs : List Seq) : Prop :=
  tableWf t = true ∧ ∀ a ∈ t, ∃ e, seqs[a.2]? = some e ∧ e.role = role

/-- Both port tables are canonical and typed (R44). -/
def tablesOk (s : State) : Prop := tableOk .initiator s.itab s.seqs ∧ tableOk .responder s.rtab s.seqs

/-- A record a sequencer emits (R46, R171, R113): its wire is the encoding of a well-formed segment with the record's
own ports, a nonzero destination, and neither URG nor RST. -/
def builtRecord (r : DeliveryRecord) : Prop :=
  ∃ g : Segment, r.wire = codecEncode g ∧ segWellFormed g = true ∧ g.srcPort = r.srcPort ∧ g.dstPort = r.dstPort ∧
    r.dstPort ≠ 0 ∧ g.flags.urg = false ∧ g.flags.rst = false

/-- Everything that waits for its hand-over was emitted by a sequencer (R46). -/
def handoverOk (s : State) : Prop := ∀ r ∈ s.handover, builtRecord r

/-- While a drain is under way there is something to deliver and nothing to hand over (R245, R246). -/
def drainOk (s : State) : Prop := s.draining = true → s.q ≠ [] ∧ s.handover = []

/-- The invariant of every state reachable from reset. -/
def Inv (s : State) : Prop := sequencersOk s ∧ tablesOk s ∧ handoverOk s ∧ drainOk s

/-- The capacities are unbounded, the defaults of R8, so that no request lies outside the interface for its size. -/
def unbounded (s : State) : Prop := s.par.payloadMax = none ∧ s.par.queueDepth = none

/-- The constants of a sequencer (R48). -/
def constantsOf (e : Seq) : SeqConfig := { role := e.role, port := e.port, iss := e.iss }

/-- The same parameters and the same constants of the same instances (R48: "no operation changes them"). -/
def sameConstants (s t : State) : Prop := t.par = s.par ∧ t.seqs.map constantsOf = s.seqs.map constantsOf

/-- The rank of an Initiator's label from SYN-SENT on (R191); CLOSED, left only by I.OPEN, counts as 8. -/
def initiatorRank : ConnState → Nat
  | .synSent        => 1
  | .synAckReceived => 2
  | .established    => 3
  | .dataReceived   => 4
  | .finWait1       => 5
  | .finWait2       => 6
  | .timeWait       => 7
  | .closed         => 8
  | .listening      => 0
  | .synReceived    => 0
  | .closeWait      => 0
  | .lastAck        => 0

/-- The position of a Responder's label in its chain (R210, R222). -/
def responderRank : ConnState → Nat
  | .listening      => 0
  | .synReceived    => 1
  | .established    => 2
  | .dataReceived   => 3
  | .closeWait      => 4
  | .lastAck        => 5
  | .closed         => 6
  | .synSent        => 0
  | .synAckReceived => 0
  | .finWait1       => 0
  | .finWait2       => 0
  | .timeWait       => 0

/-- The rank of a sequencer's label in its role's lifecycle. -/
def rank (e : Seq) : Nat :=
  match e.role with
  | .initiator => initiatorRank e.state
  | .responder => responderRank e.state

/-- Sequencer `n` of state `s` is `e`, has the role, and holds a label of that role. -/
def sequencerAt (s : State) (n : Nat) (role : Role) (e : Seq) : Prop :=
  s.seqs[n]? = some e ∧ e.role = role ∧ ownState role e.state = true

/-- A payload of `n` bytes lies within `PAYLOAD_MAX` (R42). -/
def withinMax (s : State) (n : Nat) : Prop := overLimit s.par.payloadMax n = false

/-- A row before I-C5 takes the segment: the conditions of I-C0 to I-C4 (R180 to R184). -/
def takenBeforeIC5 (e : Seq) (g : Segment) : Prop :=
  e.state = .closed ∨
  (g.flags.syn = true ∧ g.flags.ack = true ∧ (e.state = .synSent ∨ e.state = .synAckReceived)) ∨
  (g.flags.ack = true ∧ e.state = .synAckReceived) ∨
  (g.flags.psh = true ∧ (e.state = .established ∨ e.state = .dataReceived)) ∨
  (g.flags.ack = true ∧ e.state = .finWait1)

/-- A row before R-C5 takes the segment: the conditions of R-C1, R-C1a, R-C2, R-C4 and R-C6 (R212 to R217). -/
def takenBeforeRC5 (e : Seq) (g : Segment) : Prop :=
  (e.state = .listening ∧ g.flags.syn = true) ∨ (e.state = .synReceived ∧ g.flags.ack = true) ∨
  ((e.state = .established ∨ e.state = .dataReceived) ∧ (g.flags.psh = true ∨ g.flags.fin = true)) ∨
  (e.state = .lastAck ∧ g.flags.ack = true ∧ g.ack = e.sndSeq)

/-- The replies of a delivery fit behind the records that remain (R45, log entry 13): there are none, or `QUEUE_DEPTH` is
not exceeded. -/
def fitsBehind (s : State) (rest replies : List DeliveryRecord) : Prop :=
  replies = [] ∨ ∀ d, s.par.queueDepth = some d → rest.length + replies.length ≤ d

/-- `s` after a transaction that changes nothing and answers a status alone. -/
def afterStatus (s : State) (st : Status) : State :=
  { s with resp := { status := some st, wire := none, record := none, tx := [] } }

/-- `s` after a sequencer's step with status OK: registers of sequencer `n`, the records emitted, the answer, and
nothing else. -/
def afterStep (s : State) (n : Nat) (e : Seq) (tx : List DeliveryRecord) : State :=
  { s with
    seqs := s.seqs.set n e
    handover := s.handover ++ tx
    resp := { status := some .ok, wire := none, record := none, tx := tx } }

/-- The delivery record of a segment built by sequencer `e` (R171), field by field. -/
def builtOut (p : Params) (e : Seq) (f : FlagSet) (dst : Port) (sq ak : Word32) (payload : List Byte) :
    DeliveryRecord :=
  { wire := codecEncode
      { srcPort := e.port, dstPort := dst, seq := sq, ack := ak, dataOffset := 5, reserved := 0, flags := f,
        window := p.txWindow, checksum := p.txChecksum, urgent := p.txUrgent, payload := payload }
    srcPort := e.port
    dstPort := dst }

/-- A wire with its padding positions 109 to 111 set to 0 and its ragged tail removed (R145). -/
def clearedWire (w : Wire) : Wire :=
  (((w.set 109 false).set 110 false).set 111 false).take (w.length - (w.length - 160) % 8)

/-- The sequencer whose registers an instruction may write (R55, R83 (a)); for N.DELIVER, and for the one delivery that a
step of N.DRAIN makes, the owner of the head record's destination port. -/
def touched (s : State) : Instr → Option Nat
  | .encode _ => none
  | .decode _ => none
  | .iOpen ep _ => some ep
  | .iSend ep _ _ => some ep
  | .iClose ep _ => some ep
  | .iExpire ep => some ep
  | .iRecv ep _ => some ep
  | .rRecv ep _ => some ep
  | .nRegi _ _ => none
  | .nRegr _ _ => none
  | .nXmit _ _ _ => none
  | .nDeliver => (s.q.head?).bind fun r => (route s r.dstPort).map (·.2)
  | .nDrain => (s.q.head?).bind fun r => (route s r.dstPort).map (·.2)
  | .reserved0 => none
  | .reserved3 => none
  | .reservedF => none
  | .seg _ _ => none
  | .segBuilt _ _ _ _ _ _ _ _ _ => none
  | .iC0 ep _ => some ep
  | .iC1 ep _ => some ep
  | .iC2 ep _ => some ep
  | .iC3 ep _ => some ep
  | .iC4 ep _ => some ep
  | .iC5 ep _ => some ep
  | .iC6 ep _ => some ep
  | .iC7 ep _ => some ep
  | .rC1 ep _ => some ep
  | .rC1a ep _ => some ep
  | .rC2 ep _ => some ep
  | .rC3 ep _ => some ep
  | .rC4 ep _ => some ep
  | .rC6 ep _ => some ep
  | .rC5 ep _ => some ep
  | .rC7 ep _ => some ep

/-- The five operations of the link (R108). -/
def isLinkOp : Instr → Bool
  | .nRegi _ _ => true
  | .nRegr _ _ => true
  | .nXmit _ _ _ => true
  | .nDeliver => true
  | .nDrain => true
  | _ => false

/-- A run is quiescent (R316): the queue is empty and the host has no further operation to issue. -/
def quiescent (s : State) : Prop := s.q = [] ∧ s.inbox = [] ∧ s.handover = [] ∧ s.draining = false

/-- The next step is one of an N.DRAIN: it is under way, or it is the host's next request. -/
def drainNext (s : State) : Prop :=
  s.handover = [] ∧ (s.draining = true ∨ ∃ rest, s.inbox = .drainAll :: rest)

/-- The outcome of `k` steps, or of the first of them that stops. -/
def steps : Nat → State → Host.Outcome State Fault Refusal
  | 0, s => .next s
  | k + 1, s =>
    match step s with
    | .next t => steps k t
    | .fault r => .fault r
    | .refused r => .refused r

/-- `t` is `s` after `k` deliveries, each made by N.DELIVER on a queue that is not empty. -/
def deliveries : Nat → State → State → Prop
  | 0, s, t => t = s
  | k + 1, s, t => s.q ≠ [] ∧ ∃ s', exec .nDeliver s = .next s' ∧ deliveries k s' t

/-- How many deliveries a drain can make: every record of the queue and the one reply it can draw without moving a
sequencer on, and five for each sequencer's own progress (R245, "bounded by the acyclic progression of each endpoint's
state machine"; the number is the model's, log entry 15). -/
def drainBound (s : State) : Nat := 2 * s.q.length + 5 * s.seqs.length

end Sys2Proof.Machine
end

