-- ==== Sys2Proof/Certificates/Slice0/Obligations.lean ====
section
/-! DEFINITION. The statements for the provers. Each docstring names the rule of spec/ a statement formalises; where a
clause rests on a choice of the model it names the log entry. -/

open Sys2Proof Sys2Proof.Machine

/-! ### The codec (40_codec.md, 30_encoding.md, 20_memory.md) -/

/-- R144: the round trip, for every segment record, well-formed or not. -/
def Obligations.EncodeDecodeRoundTrip : Prop :=
  ∀ g : Segment, codecDecode (codecEncode g) = some g

/-- R145: re-encoding a decoded wire gives the wire with its padding cleared and its ragged tail removed; it is the
wire itself exactly when there was nothing to clear or remove; DECODE sees no more of a wire than that. -/
def Obligations.ReencodeClearsPaddingAndTail : Prop :=
  (∀ w : Wire, 160 ≤ w.length → ∃ g, codecDecode w = some g ∧ codecEncode g = clearedWire w ∧
    (codecEncode g = w ↔ memRead w 109 3 = 0 ∧ (w.length - 160) % 8 = 0)) ∧
  (∀ w w' : Wire, 160 ≤ w.length → 160 ≤ w'.length → clearedWire w = clearedWire w' →
    codecDecode w = codecDecode w') ∧
  (∃ w w' : Wire, w ≠ w' ∧ codecDecode w = codecDecode w' ∧ codecDecode w ≠ none)

/-- R146: lengths. -/
def Obligations.CodecLengths : Prop :=
  (∀ g : Segment, (codecEncode g).length = 160 + 8 * g.payload.length ∧ (codecEncode g).length % 8 = 0 ∧
    160 ≤ (codecEncode g).length) ∧
  (∀ (w : Wire) (g : Segment), 160 ≤ w.length → codecDecode w = some g →
    g.payload.length = (w.length - 160) / 8)

/-- R101: every field stands at its wire positions and at its bits of `HDR`, the payload bytes follow the header. -/
def Obligations.HeaderFieldPositions : Prop :=
  ∀ g : Segment,
    memRead (codecEncode g) 0 16 = g.srcPort ∧ memRead (codecEncode g) 16 16 = g.dstPort ∧
    memRead (codecEncode g) 32 32 = g.seq ∧ memRead (codecEncode g) 64 32 = g.ack ∧
    memRead (codecEncode g) 96 4 = g.dataOffset ∧ memRead (codecEncode g) 100 3 = g.reserved ∧
    memRead (codecEncode g) 103 9 = flags9 g.flags ∧ memRead (codecEncode g) 112 16 = g.window ∧
    memRead (codecEncode g) 128 16 = g.checksum ∧ memRead (codecEncode g) 144 16 = g.urgent ∧
    (∀ (j : Nat) (b : Byte), g.payload[j]? = some b → memRead (codecEncode g) (160 + 8 * j) 8 = b) ∧
    (hdrOfWire (codecEncode g)).extractLsb' 144 16 = g.srcPort ∧
    (hdrOfWire (codecEncode g)).extractLsb' 128 16 = g.dstPort ∧
    (hdrOfWire (codecEncode g)).extractLsb' 96 32 = g.seq ∧
    (hdrOfWire (codecEncode g)).extractLsb' 64 32 = g.ack ∧
    (hdrOfWire (codecEncode g)).extractLsb' 60 4 = g.dataOffset ∧
    (hdrOfWire (codecEncode g)).extractLsb' 57 3 = g.reserved ∧
    (hdrOfWire (codecEncode g)).extractLsb' 48 9 = flags9 g.flags ∧
    (hdrOfWire (codecEncode g)).extractLsb' 32 16 = g.window ∧
    (hdrOfWire (codecEncode g)).extractLsb' 16 16 = g.checksum ∧
    (hdrOfWire (codecEncode g)).extractLsb' 0 16 = g.urgent

/-- R103: the weights of the flags field, the flags first and the padding last and 0; DECODE takes the flags from the
first six of the nine bits and ignores the other three. -/
def Obligations.FlagsFieldWeights : Prop :=
  (∀ f : FlagSet, (flags9 f).toNat =
    0x100 * f.urg.toNat + 0x080 * f.ack.toNat + 0x040 * f.psh.toNat + 0x020 * f.rst.toNat +
      0x010 * f.syn.toNat + 0x008 * f.fin.toNat) ∧
  (∀ (w : Wire) (g : Segment), codecDecode w = some g →
    g.flags.urg = (memRead w 103 9).getLsbD 8 ∧ g.flags.ack = (memRead w 103 9).getLsbD 7 ∧
    g.flags.psh = (memRead w 103 9).getLsbD 6 ∧ g.flags.rst = (memRead w 103 9).getLsbD 5 ∧
    g.flags.syn = (memRead w 103 9).getLsbD 4 ∧ g.flags.fin = (memRead w 103 9).getLsbD 3)

/-- R141: ENCODE answers the concatenation of the fields in order, status OK, and writes nothing else, for a payload
within `PAYLOAD_MAX`; beyond it the request is refused (log entry 13). -/
def Obligations.EncodeAnswersItsWire : Prop :=
  ∀ (g : Segment) (s : State),
    (withinMax s g.payload.length →
      exec (.encode g) s = .next { s with resp :=
        { status := some .ok, record := none, tx := [],
          wire := some (bitsN g.srcPort ++ bitsN g.dstPort ++ bitsN g.seq ++ bitsN g.ack ++ bitsN g.dataOffset ++
            bitsN g.reserved ++ [g.flags.urg, g.flags.ack, g.flags.psh, g.flags.rst, g.flags.syn, g.flags.fin,
              false, false, false] ++
            bitsN g.window ++ bitsN g.checksum ++ bitsN g.urgent ++ g.payload.flatMap bitsN) } }) ∧
    (¬ withinMax s g.payload.length → exec (.encode g) s = .refused .payloadOverMax)

/-- R142: DECODE of a wire shorter than 160 bits is MalformedSegment; of any other wire (with a payload within
`PAYLOAD_MAX`) it answers OK and the record whose fields stand at the fixed positions; it writes nothing else. -/
def Obligations.DecodeAnswersRecordOrMalformed : Prop :=
  ∀ (w : Wire) (s : State),
    (w.length < 160 → exec (.decode w) s = .next (afterStatus s .malformedSegment)) ∧
    (160 ≤ w.length → withinMax s ((w.length - 160) / 8) →
      exec (.decode w) s = .next { s with resp :=
        { status := some .ok, wire := none, tx := [],
          record := some
            { srcPort := memRead w 0 16, dstPort := memRead w 16 16, seq := memRead w 32 32,
              ack := memRead w 64 32, dataOffset := memRead w 96 4, reserved := memRead w 100 3,
              flags := { urg := bitAt w 103, ack := bitAt w 104, psh := bitAt w 105, rst := bitAt w 106,
                         syn := bitAt w 107, fin := bitAt w 108 },
              window := memRead w 112 16, checksum := memRead w 128 16, urgent := memRead w 144 16,
              payload := (List.range ((w.length - 160) / 8)).map fun j => memRead w (160 + 8 * j) 8 } } }) ∧
    (160 ≤ w.length → ¬ withinMax s ((w.length - 160) / 8) → exec (.decode w) s = .refused .payloadOverMax)

/-- The row SEG: any header, read as `HDR`, is answered with the record whose fields are its bits (R101's `HDR` column);
what follows the header is the payload, a ragged tail dropped (R104). That the row is an instruction which DECODES its
wire is log entry 9. -/
def Obligations.SegAnswersHdrFields : Prop :=
  ∀ (hdr : BitVec 160) (tail : Wire) (s : State), withinMax s (tail.length / 8) →
    ∃ g : Segment,
      exec (.seg hdr tail) s = .next { s with resp :=
        { status := some .ok, wire := none, record := some g, tx := [] } } ∧
      g.srcPort = hdr.extractLsb' 144 16 ∧ g.dstPort = hdr.extractLsb' 128 16 ∧
      g.seq = hdr.extractLsb' 96 32 ∧ g.ack = hdr.extractLsb' 64 32 ∧
      g.dataOffset = hdr.extractLsb' 60 4 ∧ g.reserved = hdr.extractLsb' 57 3 ∧
      g.flags = flagsOfField (hdr.extractLsb' 48 9) ∧
      g.window = hdr.extractLsb' 32 16 ∧ g.checksum = hdr.extractLsb' 16 16 ∧
      g.urgent = hdr.extractLsb' 0 16 ∧
      g.payload = (List.range (tail.length / 8)).map fun j => memRead tail (8 * j) 8

/-- The row SEG.BUILT: the wire of a well-formed record has the row's pattern (R117: `data_offset` 0101, `reserved`
000, padding 000) and is answered with that record. That the row is an instruction is log entry 9. -/
def Obligations.BuiltSegmentAnswersItsRecord : Prop :=
  ∀ (src dst : Port) (sq ak : Word32) (f : FlagSet) (window checksum urgent : BitVec 16) (payload : List Byte)
    (s : State), withinMax s payload.length →
    isBuiltWire (codecEncode (mkSeg src dst sq ak f window checksum urgent payload)) = true ∧
    exec (.segBuilt src dst sq ak f window checksum urgent payload) s = .next { s with resp :=
      { status := some .ok, wire := none, tx := [],
        record := some { srcPort := src, dstPort := dst, seq := sq, ack := ak, dataOffset := 5, reserved := 0,
                         flags := f, window := window, checksum := checksum, urgent := urgent,
                         payload := payload } } }

/-! ### The Initiator's commands (41_initiator.md) -/

/-- R172: I.OPEN. -/
def Obligations.OpenCommand : Prop :=
  ∀ (s : State) (n : Nat) (e : Seq) (dst : Port), sequencerAt s n .initiator e →
    (e.state = .closed → dst ≠ 0 → exec (.iOpen n dst) s = .next
      (afterStep s n { e with state := .synSent } [builtOut s.par e flagsSyn dst e.sndSeq e.rcvAck []])) ∧
    (e.state ≠ .closed → exec (.iOpen n dst) s = .next (afterStatus s .invalidState)) ∧
    (e.state = .closed → dst = 0 → exec (.iOpen n dst) s = .next (afterStatus s .unaddressedSegment))

/-- R173: I.SEND, for a payload within `PAYLOAD_MAX`. That a longer payload is refused before any other test, whatever
the sequencer, is the model's reading of R42 and R289, log entry 13. -/
def Obligations.SendCommand : Prop :=
  (∀ (s : State) (n : Nat) (dst : Port) (payload : List Byte), ¬ withinMax s payload.length →
    exec (.iSend n dst payload) s = .refused .payloadOverMax) ∧
  ∀ (s : State) (n : Nat) (e : Seq) (dst : Port) (payload : List Byte), sequencerAt s n .initiator e →
    withinMax s payload.length →
    ((e.state = .established ∨ e.state = .dataReceived) → dst ≠ 0 → exec (.iSend n dst payload) s = .next
      (afterStep s n { e with sndSeq := e.sndSeq + BitVec.ofNat 32 payload.length }
        [builtOut s.par e flagsPshAck dst e.sndSeq e.rcvAck payload])) ∧
    (e.state ≠ .established → e.state ≠ .dataReceived →
      exec (.iSend n dst payload) s = .next (afterStatus s .notEstablished)) ∧
    ((e.state = .established ∨ e.state = .dataReceived) → dst = 0 →
      exec (.iSend n dst payload) s = .next (afterStatus s .unaddressedSegment))

/-- R174: I.CLOSE. -/
def Obligations.CloseCommand : Prop :=
  ∀ (s : State) (n : Nat) (e : Seq) (dst : Port), sequencerAt s n .initiator e →
    ((e.state = .established ∨ e.state = .dataReceived) → dst ≠ 0 → exec (.iClose n dst) s = .next
      (afterStep s n { e with state := .finWait1 } [builtOut s.par e flagsFinAck dst e.sndSeq e.rcvAck []])) ∧
    (e.state ≠ .established → e.state ≠ .dataReceived →
      exec (.iClose n dst) s = .next (afterStatus s .invalidState)) ∧
    ((e.state = .established ∨ e.state = .dataReceived) → dst = 0 →
      exec (.iClose n dst) s = .next (afterStatus s .unaddressedSegment))

/-- R175: I.EXPIRE. -/
def Obligations.ExpireCommand : Prop :=
  ∀ (s : State) (n : Nat) (e : Seq), sequencerAt s n .initiator e →
    (e.state = .timeWait → exec (.iExpire n) s = .next (afterStep s n { e with state := .closed } [])) ∧
    (e.state ≠ .timeWait → exec (.iExpire n) s = .next (afterStatus s .invalidState))

/-- R221, R110: a Responder answers every command, and I.RECV, InvalidState and does nothing; an Initiator answers R.RECV
so (log entry 14). -/
def Obligations.OtherRoleAnswersInvalidState : Prop :=
  ∀ (s : State) (n : Nat) (e : Seq) (dst : Port) (payload : List Byte) (w : Wire),
    s.seqs[n]? = some e → withinMax s payload.length → wireOverMax s.par w = false →
    (e.role = .responder →
      exec (.iOpen n dst) s = .next (afterStatus s .invalidState) ∧
      exec (.iSend n dst payload) s = .next (afterStatus s .invalidState) ∧
      exec (.iClose n dst) s = .next (afterStatus s .invalidState) ∧
      exec (.iExpire n) s = .next (afterStatus s .invalidState) ∧
      exec (.iRecv n w) s = .next (afterStatus s .invalidState)) ∧
    (e.role = .initiator → exec (.rRecv n w) s = .next (afterStatus s .invalidState))

/-- R110: the reserved operation numbers, and at the command interface every number that is none of the four commands,
change nothing and answer InvalidState. -/
def Obligations.ReservedNumbersAnswerInvalidState : Prop :=
  (∀ s : State, exec .reserved0 s = .next (afterStatus s .invalidState) ∧
    exec .reserved3 s = .next (afterStatus s .invalidState) ∧
    exec .reservedF s = .next (afterStatus s .invalidState)) ∧
  (∀ (s : State) (n : Nat) (op : BitVec 4) (dst : Port) (payload : List Byte) (rest : List Request),
    s.handover = [] → s.draining = false → s.inbox = .command n op dst payload :: rest →
    op ≠ 4 → op ≠ 5 → op ≠ 6 → op ≠ 7 →
    step s = .next (afterStatus { s with inbox := rest } .invalidState))

/-! ### The dispatch cases (41_initiator.md, 42_responder.md). Each is stated of the dispatch row, and of the receive
operation for the wires whose segment reaches that row. That a row is an instruction, which enters the precedence list
there, is log entry 8. -/

/-- R180, R187, R219: the cases that do nothing, as rows and, for a wire whose segment reaches them, as the receive
operation. That the rows I-C7 and R-C7 do nothing also with a segment that an earlier case takes is the model's choice,
log entry 8. -/
def Obligations.InertCases : Prop :=
  ∀ (s : State) (n : Nat) (e : Seq) (g : Segment), withinMax s g.payload.length →
    (sequencerAt s n .initiator e → e.state = .closed → exec (.iC0 n g) s = .next (afterStatus s .ok) ∧
      ∀ w, codecDecode w = some g → exec (.iRecv n w) s = .next (afterStatus s .ok)) ∧
    (sequencerAt s n .initiator e → exec (.iC7 n g) s = .next (afterStatus s .ok) ∧
      (¬ takenBeforeIC5 e g → g.flags.fin = false → flags9 g.flags &&& 0x1F8 ≠ 0x080 →
        ∀ w, codecDecode w = some g → exec (.iRecv n w) s = .next (afterStatus s .ok))) ∧
    (sequencerAt s n .responder e → exec (.rC7 n g) s = .next (afterStatus s .ok) ∧
      (¬ takenBeforeRC5 e g → e.finOwed = false →
        ∀ w, codecDecode w = some g → exec (.rRecv n w) s = .next (afterStatus s .ok)))

/-- R182, R184, R213, R217: the cases that write `state` and nothing else, as rows and as the receive operation (which
reaches I-C2 only without SYN). The row I-C2 with SYN set, where R182 has I-C1 take the segment, is the model's choice,
log entry 8. -/
def Obligations.StateOnlyCases : Prop :=
  ∀ (s : State) (n : Nat) (e : Seq) (g : Segment), withinMax s g.payload.length → g.flags.ack = true →
    (sequencerAt s n .initiator e → e.state = .synAckReceived →
      exec (.iC2 n g) s = .next (afterStep s n { e with state := .established } []) ∧
      (g.flags.syn = false → ∀ w, codecDecode w = some g → exec (.iRecv n w) s = exec (.iC2 n g) s)) ∧
    (sequencerAt s n .initiator e → e.state = .finWait1 →
      exec (.iC4 n g) s = .next (afterStep s n { e with state := .finWait2 } []) ∧
      ∀ w, codecDecode w = some g → exec (.iRecv n w) s = exec (.iC4 n g) s) ∧
    (sequencerAt s n .responder e → e.state = .synReceived →
      exec (.rC1a n g) s = .next (afterStep s n { e with state := .established } []) ∧
      ∀ w, codecDecode w = some g → exec (.rRecv n w) s = exec (.rC1a n g) s) ∧
    (sequencerAt s n .responder e → e.state = .lastAck → g.ack = e.sndSeq →
      exec (.rC6 n g) s = .next (afterStep s n { e with state := .closed } []) ∧
      ∀ w, codecDecode w = some g → exec (.rRecv n w) s = exec (.rC6 n g) s)

/-- R181: SYN+ACK completes the Initiator's handshake, as the dispatch row and as I.RECV of a wire. -/
def Obligations.SynAckCompletesHandshake : Prop :=
  ∀ (s : State) (n : Nat) (e : Seq) (g : Segment), sequencerAt s n .initiator e → withinMax s g.payload.length →
    g.flags.syn = true → g.flags.ack = true → (e.state = .synSent ∨ e.state = .synAckReceived) →
    (g.srcPort ≠ 0 → exec (.iC1 n g) s = .next
      (afterStep s n { e with rcvAck := g.seq + 1, state := .established }
        [builtOut s.par e flagsAck g.srcPort e.sndSeq (g.seq + 1) []])) ∧
    (g.srcPort = 0 → exec (.iC1 n g) s = .next (afterStatus s .unaddressedSegment)) ∧
    (∀ w, codecDecode w = some g → exec (.iRecv n w) s = exec (.iC1 n g) s)

/-- R183: data at the Initiator, under either `I_PSH_AUTOACK`. -/
def Obligations.DataAtInitiator : Prop :=
  ∀ (s : State) (n : Nat) (e : Seq) (g : Segment), sequencerAt s n .initiator e → withinMax s g.payload.length →
    g.flags.psh = true → (e.state = .established ∨ e.state = .dataReceived) →
    (s.par.iPshAutoack = false → exec (.iC3 n g) s = .next
      (afterStep s n { e with rcvAck := g.seq + BitVec.ofNat 32 g.payload.length, state := .dataReceived } [])) ∧
    (s.par.iPshAutoack = true → g.srcPort ≠ 0 → exec (.iC3 n g) s = .next
      (afterStep s n { e with rcvAck := g.seq + BitVec.ofNat 32 g.payload.length, state := .dataReceived }
        [builtOut s.par e flagsAck g.srcPort e.sndSeq (g.seq + BitVec.ofNat 32 g.payload.length) []])) ∧
    (s.par.iPshAutoack = true → g.srcPort = 0 → exec (.iC3 n g) s = .next (afterStatus s .unaddressedSegment)) ∧
    (∀ w, codecDecode w = some g → exec (.iRecv n w) s = exec (.iC3 n g) s)

/-- R185: the peer's FIN at the Initiator. The row on a segment that an earlier case takes (in CLOSED, in FIN-WAIT-1 with
ACK, and the others of `takenBeforeIC5`) is the model's choice, log entry 8. -/
def Obligations.FinAtInitiator : Prop :=
  ∀ (s : State) (n : Nat) (e : Seq) (g : Segment), sequencerAt s n .initiator e → withinMax s g.payload.length →
    g.flags.fin = true →
    (g.srcPort ≠ 0 → exec (.iC5 n g) s = .next
      (afterStep s n { e with rcvAck := g.seq + 1, state := .timeWait }
        [builtOut s.par e flagsAck g.srcPort e.sndSeq (g.seq + 1) []])) ∧
    (g.srcPort = 0 → exec (.iC5 n g) s = .next (afterStatus s .unaddressedSegment)) ∧
    (¬ takenBeforeIC5 e g → ∀ w, codecDecode w = some g → exec (.iRecv n w) s = exec (.iC5 n g) s)

/-- R186: a bare ACK writes what `BARE_ACK_UPDATE` says into `rcv_ack` and nothing else: under the default nothing at
all, else the value of the parameter, of which nothing is assumed (log entry 3). The row on a segment that an earlier
case takes (`takenBeforeIC5`) is the model's choice, log entry 8. -/
def Obligations.BareAckAtInitiator : Prop :=
  ∀ (s : State) (n : Nat) (e : Seq) (g : Segment), sequencerAt s n .initiator e → withinMax s g.payload.length →
    g.flags = { urg := false, ack := true, psh := false, rst := false, syn := false, fin := false } →
    (s.par.bareAck = .identity → exec (.iC6 n g) s = .next (afterStatus s .ok)) ∧
    (s.par.bareAck = .unspecified → exec (.iC6 n g) s = .next
      (afterStep s n { e with rcvAck := Config.bareAckUpdate e.rcvAck g } [])) ∧
    (¬ takenBeforeIC5 e g → ∀ w, codecDecode w = some g → exec (.iRecv n w) s = exec (.iC6 n g) s)

/-- R212: SYN at a LISTENING Responder, as the dispatch row and as R.RECV of a wire. -/
def Obligations.SynAtListeningResponder : Prop :=
  ∀ (s : State) (n : Nat) (e : Seq) (g : Segment), sequencerAt s n .responder e → withinMax s g.payload.length →
    g.flags.syn = true → e.state = .listening →
    (g.srcPort ≠ 0 → exec (.rC1 n g) s = .next
      (afterStep s n { e with rcvAck := g.seq + 1, state := .synReceived }
        [builtOut s.par e flagsSynAck g.srcPort e.sndSeq (g.seq + 1) []])) ∧
    (g.srcPort = 0 → exec (.rC1 n g) s = .next (afterStatus s .unaddressedSegment)) ∧
    (∀ w, codecDecode w = some g → exec (.rRecv n w) s = exec (.rC1 n g) s)

/-- R214: data at the Responder. -/
def Obligations.DataAtResponder : Prop :=
  ∀ (s : State) (n : Nat) (e : Seq) (g : Segment), sequencerAt s n .responder e → withinMax s g.payload.length →
    g.flags.psh = true → (e.state = .established ∨ e.state = .dataReceived) →
    (g.srcPort ≠ 0 → exec (.rC2 n g) s = .next
      (afterStep s n { e with rcvAck := g.seq + BitVec.ofNat 32 g.payload.length, state := .dataReceived }
        [builtOut s.par e flagsAck g.srcPort e.sndSeq (g.seq + BitVec.ofNat 32 g.payload.length) []])) ∧
    (g.srcPort = 0 → exec (.rC2 n g) s = .next (afterStatus s .unaddressedSegment)) ∧
    (∀ w, codecDecode w = some g → exec (.rRecv n w) s = exec (.rC2 n g) s)

/-- R215: the dead case. No sequencer and no segment select it; entering the list at it is entering it at R-C4, which
answers (log entry 8). -/
def Obligations.DeadCaseNeverMatches : Prop :=
  (∀ (e : Seq) (v : BitVec 9) (g : Segment), selectCase e v g ≠ .rC3) ∧
  (∀ (s : State) (n : Nat) (e : Seq) (g : Segment), sequencerAt s n .responder e → withinMax s g.payload.length →
    exec (.rC3 n g) s = exec (.rC4 n g) s ∧ ∃ t, exec (.rC3 n g) s = .next t)

/-- R216: the peer's FIN at the Responder, under either `FIN_POLICY`. The row on a segment with PSH, which R-C2 takes, is
the model's choice, log entry 8. -/
def Obligations.FinAtResponder : Prop :=
  ∀ (s : State) (n : Nat) (e : Seq) (g : Segment), sequencerAt s n .responder e → withinMax s g.payload.length →
    g.flags.fin = true → (e.state = .established ∨ e.state = .dataReceived) →
    (s.par.finPolicy = .lazy → g.srcPort ≠ 0 → exec (.rC4 n g) s = .next
      (afterStep s n { e with rcvAck := g.seq + 1, state := .closeWait, finOwed := true }
        [builtOut s.par e flagsAck g.srcPort e.sndSeq (g.seq + 1) []])) ∧
    (s.par.finPolicy = .eager → g.srcPort ≠ 0 → exec (.rC4 n g) s = .next
      (afterStep s n { e with rcvAck := g.seq + 1, sndSeq := e.sndSeq + 1, state := .lastAck, finOwed := false }
        [builtOut s.par e flagsAck g.srcPort e.sndSeq (g.seq + 1) [],
         builtOut s.par e flagsFin g.srcPort e.sndSeq (g.seq + 1) []])) ∧
    (g.srcPort = 0 → exec (.rC4 n g) s = .next (afterStatus s .unaddressedSegment)) ∧
    (g.flags.psh = false → ∀ w, codecDecode w = some g → exec (.rRecv n w) s = exec (.rC4 n g) s)

/-- R218: the owed FIN. The row on a segment that an earlier case takes (`takenBeforeRC5`) is the model's choice, log
entry 8. -/
def Obligations.OwedFin : Prop :=
  ∀ (s : State) (n : Nat) (e : Seq) (g : Segment), sequencerAt s n .responder e → withinMax s g.payload.length →
    e.finOwed = true →
    (g.srcPort ≠ 0 → exec (.rC5 n g) s = .next
      (afterStep s n { e with sndSeq := e.sndSeq + 1, state := .lastAck, finOwed := false }
        [builtOut s.par e flagsFin g.srcPort e.sndSeq e.rcvAck []])) ∧
    (g.srcPort = 0 → exec (.rC5 n g) s = .next (afterStatus s .unaddressedSegment)) ∧
    (¬ takenBeforeRC5 e g → ∀ w, codecDecode w = some g → exec (.rRecv n w) s = exec (.rC5 n g) s)

/-- The precedence (R15, R111, R112): a row whose condition fails leaves the segment to the row after it. That a row, as
an instruction, enters the list there is log entry 8. -/
def Obligations.DispatchRowFallsToTheNext : Prop :=
  ∀ (s : State) (n : Nat) (e : Seq) (g : Segment), s.seqs[n]? = some e →
    (e.state ≠ .closed → exec (.iC0 n g) s = exec (.iC1 n g) s) ∧
    (¬ (g.flags.syn = true ∧ g.flags.ack = true ∧ (e.state = .synSent ∨ e.state = .synAckReceived)) →
      exec (.iC1 n g) s = exec (.iC2 n g) s) ∧
    (¬ (g.flags.ack = true ∧ e.state = .synAckReceived) → exec (.iC2 n g) s = exec (.iC3 n g) s) ∧
    (¬ (g.flags.psh = true ∧ (e.state = .established ∨ e.state = .dataReceived)) →
      exec (.iC3 n g) s = exec (.iC4 n g) s) ∧
    (¬ (g.flags.ack = true ∧ e.state = .finWait1) → exec (.iC4 n g) s = exec (.iC5 n g) s) ∧
    (g.flags.fin = false → exec (.iC5 n g) s = exec (.iC6 n g) s) ∧
    (flags9 g.flags &&& 0x1F8 ≠ 0x080 → exec (.iC6 n g) s = exec (.iC7 n g) s) ∧
    (¬ (e.state = .listening ∧ g.flags.syn = true) → exec (.rC1 n g) s = exec (.rC1a n g) s) ∧
    (¬ (e.state = .synReceived ∧ g.flags.ack = true) → exec (.rC1a n g) s = exec (.rC2 n g) s) ∧
    (¬ (g.flags.psh = true ∧ (e.state = .established ∨ e.state = .dataReceived)) →
      exec (.rC2 n g) s = exec (.rC4 n g) s) ∧
    (¬ (g.flags.fin = true ∧ (e.state = .established ∨ e.state = .dataReceived)) →
      exec (.rC4 n g) s = exec (.rC6 n g) s) ∧
    (¬ (e.state = .lastAck ∧ g.flags.ack = true ∧ g.ack = e.sndSeq) → exec (.rC6 n g) s = exec (.rC5 n g) s) ∧
    (e.finOwed = false → exec (.rC5 n g) s = exec (.rC7 n g) s)

/-- R271 at a receive interface: a wire shorter than 160 bits writes nothing, emits nothing and answers
MalformedSegment. -/
def Obligations.ShortWireIsMalformed : Prop :=
  ∀ (s : State) (n : Nat) (role : Role) (e : Seq) (w : Wire), sequencerAt s n role e → w.length < 160 →
    exec (recvInstr n w role) s = .next (afterStatus s .malformedSegment)

/-- I.RECV (R176) and R.RECV (R211) of a wire with a whole header and a payload within `PAYLOAD_MAX` run, with a next
state, as the decoded segment entering the role's list at its first row. That a longer payload is refused, by the
receive operations and by every dispatch row, whatever the sequencer, is the model's reading of R42 and R289, log
entry 13. -/
def Obligations.ReceivePerformsTheList : Prop :=
  ∀ (s : State) (n : Nat) (w : Wire) (g : Segment), codecDecode w = some g →
    (withinMax s g.payload.length →
      (∀ e, sequencerAt s n .initiator e → ∃ t, exec (.iRecv n w) s = .next t ∧ exec (.iC0 n g) s = .next t) ∧
      (∀ e, sequencerAt s n .responder e → ∃ t, exec (.rRecv n w) s = .next t ∧ exec (.rC1 n g) s = .next t)) ∧
    (¬ withinMax s g.payload.length →
      exec (.iRecv n w) s = .refused .payloadOverMax ∧ exec (.rRecv n w) s = .refused .payloadOverMax ∧
      ∀ c : RxCase, exec (c.instr n g) s = .refused .payloadOverMax)

/-- What lies outside the interface of a sequencer is refused: every operation of its role on a sequencer placed in a
label the role never holds (R223, 93_implementation_defined.md U6, log entry 10), and every operation on an instance
that does not exist (log entry 12). -/
def Obligations.OutsideTheInterfaceIsRefused : Prop :=
  ∀ (s : State) (n : Nat) (dst : Port) (payload : List Byte) (w : Wire), withinMax s payload.length →
    wireOverMax s.par w = false →
    (∀ e, s.seqs[n]? = some e → e.role = .responder → (e.state = .synSent ∨ e.state = .synAckReceived ∨
      e.state = .finWait1 ∨ e.state = .finWait2 ∨ e.state = .timeWait) →
      exec (.rRecv n w) s = .refused .foreignState) ∧
    (∀ e, s.seqs[n]? = some e → e.role = .initiator → (e.state = .listening ∨ e.state = .synReceived ∨
      e.state = .closeWait ∨ e.state = .lastAck) →
      exec (.iOpen n dst) s = .refused .foreignState ∧ exec (.iSend n dst payload) s = .refused .foreignState ∧
      exec (.iClose n dst) s = .refused .foreignState ∧ exec (.iExpire n) s = .refused .foreignState ∧
      exec (.iRecv n w) s = .refused .foreignState) ∧
    (s.seqs[n]? = none →
      exec (.iOpen n dst) s = .refused .noSuchInstance ∧ exec (.iSend n dst payload) s = .refused .noSuchInstance ∧
      exec (.iClose n dst) s = .refused .noSuchInstance ∧ exec (.iExpire n) s = .refused .noSuchInstance ∧
      exec (.iRecv n w) s = .refused .noSuchInstance ∧ exec (.rRecv n w) s = .refused .noSuchInstance ∧
      exec (.nRegi dst n) s = .refused .noSuchInstance ∧ exec (.nRegr dst n) s = .refused .noSuchInstance)

/-! ### The link (43_substrate.md) -/

/-- R241, R242: a registration of an instance of the right role answers OK and writes its table at that port and
nothing else; the last registration for a port wins, and the same registration again changes nothing more; an instance
of the other role is refused (log entry 11). -/
def Obligations.RegistrationWritesItsTable : Prop :=
  ∀ (s : State) (port : Port) (n : Nat) (e : Seq), s.seqs[n]? = some e →
    (e.role = .initiator → ∃ tab, exec (.nRegi port n) s = .next (afterStatus { s with itab := tab } .ok) ∧
      (∀ k, tableGet tab k = if k = port then some n else tableGet s.itab k) ∧
      exec (.nRegi port n) { s with itab := tab } = .next (afterStatus { s with itab := tab } .ok)) ∧
    (e.role = .responder → ∃ tab, exec (.nRegr port n) s = .next (afterStatus { s with rtab := tab } .ok) ∧
      (∀ k, tableGet tab k = if k = port then some n else tableGet s.rtab k) ∧
      exec (.nRegr port n) { s with rtab := tab } = .next (afterStatus { s with rtab := tab } .ok)) ∧
    (e.role = .responder → exec (.nRegi port n) s = .refused .illTypedInstance) ∧
    (e.role = .initiator → exec (.nRegr port n) s = .refused .illTypedInstance)

/-- R243: N.XMIT appends at the tail and checks nothing; on a queue of `QUEUE_DEPTH` records it is refused. -/
def Obligations.TransmitAppends : Prop :=
  ∀ (s : State) (w : Wire) (src dst : Port),
    ((∀ d, s.par.queueDepth = some d → s.q.length < d) →
      exec (.nXmit w src dst) s = .next
        (afterStatus { s with q := s.q ++ [{ wire := w, srcPort := src, dstPort := dst }] } .ok)) ∧
    (∀ d, s.par.queueDepth = some d → d ≤ s.q.length → exec (.nXmit w src dst) s = .refused .queueFull)

/-- R80: the responder table first, else the initiator table. -/
def Obligations.ResponderTableFirst : Prop :=
  ∀ (s : State) (port : Port),
    (∀ n, tableGet s.rtab port = some n → route s port = some (.responder, n)) ∧
    (∀ n, tableGet s.rtab port = none → tableGet s.itab port = some n → route s port = some (.initiator, n)) ∧
    (tableGet s.rtab port = none → tableGet s.itab port = none → route s port = none)

/-- R244, the deliveries without a receive step: an empty queue is no effect and OK; a record no table knows is dropped
with UnknownDestination and nothing else changes (R274). -/
def Obligations.DeliverWithoutOwner : Prop :=
  ∀ s : State,
    (s.q = [] → exec .nDeliver s = .next (afterStatus s .ok)) ∧
    (∀ r rest, s.q = r :: rest → tableGet s.rtab r.dstPort = none → tableGet s.itab r.dstPort = none →
      exec .nDeliver s = .next (afterStatus { s with q := rest } .unknownDestination))

/-- R244, the deliveries with an owner, under any `PAYLOAD_MAX` and `QUEUE_DEPTH`: the head is removed first, the owner
makes its receive operation on the record's wire, and what that emits goes to the tail of the queue (R247); its status
is the delivery's. That a delivery is refused where the wire's payload is over `PAYLOAD_MAX`, or where the replies do
not fit behind the records that remain, is the model's reading of R42, R45 and R289, log entry 13. -/
def Obligations.DeliverIsReceiveOperation : Prop :=
  ∀ (s : State) (r : DeliveryRecord) (rest : List DeliveryRecord) (role : Role) (n : Nat) (e : Seq),
    s.q = r :: rest → route s r.dstPort = some (role, n) → sequencerAt s n role e →
    (wireOverMax s.par r.wire = true → exec .nDeliver s = .refused .payloadOverMax) ∧
    (wireOverMax s.par r.wire = false →
      ∃ t, exec (recvInstr n r.wire role) { s with q := rest, handover := [] } = .next t ∧
        (fitsBehind s rest t.handover → exec .nDeliver s = .next { s with
          seqs := t.seqs
          q := rest ++ t.handover
          resp := { status := t.resp.status, wire := none, record := none, tx := [] } }) ∧
        (¬ fitsBehind s rest t.handover → exec .nDeliver s = .refused .queueFull))

/-- R245, termination: from every state, reachable or not, with any number of sequencers, a drain that is next ends, with
an empty queue, or is stopped by a refusal, after no more steps than `drainBound` says (one step, on an empty queue).
The number is the model's (log entry 15). -/
def Obligations.DrainEndsWithEmptyQueue : Prop :=
  ∀ s : State, drainNext s → ∃ k, 0 < k ∧ k ≤ max 1 (drainBound s) ∧
    ((∃ t, steps k s = .next t ∧ t.draining = false ∧ t.q = []) ∨ ∃ r, steps k s = .refused r)

/-- R245: N.DRAIN answers with a next state, and the drain completes with an empty queue, wherever the tables are typed,
every sequencer holds a label of its role, and the capacities are unbounded. That a step is one delivery of it is log
entry 15. -/
def Obligations.DrainCompletes : Prop :=
  ∀ s : State, unbounded s → tablesOk s → labelsOk s →
    (∃ t, exec .nDrain s = .next t ∧ (t.draining = true ↔ t.q ≠ [])) ∧
    (drainNext s → ∃ k t, steps k s = .next t ∧ t.draining = false ∧ t.q = [])

/-- R245, "it is the sequence of its N.DELIVER steps": a step of N.DRAIN on a non-empty queue is one N.DELIVER, its status
and its refusal included, after which the drain is under way exactly while the queue is not empty; on an empty queue it
changes nothing, ends the drain and answers OK (R270). A drain that is under way makes `k` N.DELIVERs in the next `k` steps,
whatever the inbox holds, and a later delivery that is refused is refused in the state those before it left. The flag
that a drain is under way is log entry 15. -/
def Obligations.DrainRepeatsDeliver : Prop :=
  (∀ s : State, s.q = [] → exec .nDrain s = .next (afterStatus { s with draining := false } .ok)) ∧
  (∀ s s' : State, s.q ≠ [] → exec .nDeliver s = .next s' →
    exec .nDrain s = .next { s' with draining := !s'.q.isEmpty }) ∧
  (∀ (s : State) (r : Refusal), exec .nDeliver s = .refused r → exec .nDrain s = .refused r) ∧
  (∀ (k : Nat) (s t : State), s.handover = [] → s.draining = true → deliveries k s t →
    (0 < k → steps k s = .next { t with draining := !t.q.isEmpty }) ∧
    (∀ r, exec .nDeliver t = .refused r → steps (k + 1) s = .refused r))

/-- The handshake through the link (R212, R181, R213; the spec's property T3): one drain of a queue that holds the
Initiator's SYN makes three deliveries, each with status OK, and leaves both sequencers ESTABLISHED, each with the
other's `snd_seq` plus 1 in `rcv_ack`. That each delivery is a step, and its status that step's, is log entry 15. -/
def Obligations.DrainCompletesHandshake : Prop :=
  ∀ (s : State) (a b : Nat) (i r : Seq),
    drainNext s → unbounded s → sequencerAt s a .initiator i → sequencerAt s b .responder r →
    i.state = .synSent → r.state = .listening → i.port ≠ 0 → r.port ≠ 0 →
    tableGet s.rtab r.port = some b → tableGet s.rtab i.port = none → tableGet s.itab i.port = some a →
    s.q = [builtOut s.par i flagsSyn r.port i.sndSeq i.rcvAck []] →
    ∃ t₁ t₂ t, steps 1 s = .next t₁ ∧ steps 2 s = .next t₂ ∧ steps 3 s = .next t ∧
      t₁.resp.status = some .ok ∧ t₂.resp.status = some .ok ∧ t.resp.status = some .ok ∧
      t₁.draining = true ∧ t₂.draining = true ∧ t.draining = false ∧ t.q = [] ∧
      t.seqs[a]? = some { i with state := .established, rcvAck := r.sndSeq + 1 } ∧
      t.seqs[b]? = some { r with state := .established, rcvAck := i.sndSeq + 1 }

/-! ### The whole machine -/

/-- A step runs the decoded instruction: with nothing to hand over and no drain under way, the next request that decodes to
an instruction is taken from the inbox (what remains of a script stands first) and executed; with a drain under way the
step is that N.DRAIN's next delivery, and no request is taken (R245). The inbox, the order hand-over first and the drain
under way are log entries 4, 5 and 15. -/
def Obligations.StepRunsTheDecodedInstruction : Prop :=
  (∀ (s : State) (rq : Request) (rest : List Request) (i : Instr) (remaining : Option Request),
    s.handover = [] → s.draining = false → s.inbox = rq :: rest →
    decodeRequest s.seqs rq = .ok (i, remaining) →
    step s = exec i { s with inbox := inboxAfter remaining rest }) ∧
  (∀ s : State, s.handover = [] → s.draining = true → step s = exec .nDrain s)

/-- R246: a record that waits for its hand-over is given to the link, by one N.XMIT, before any other step. One hand-over
a step is log entry 5; that a hand-over to a full queue is refused is log entry 13. -/
def Obligations.HandoverGoesFirst : Prop :=
  ∀ (s : State) (r : DeliveryRecord) (rest : List DeliveryRecord), s.handover = r :: rest →
    ((∀ d, s.par.queueDepth = some d → s.q.length < d) →
      step s = .next (afterStatus { s with handover := rest, q := s.q ++ [r] } .ok)) ∧
    (∀ d, s.par.queueDepth = some d → d ≤ s.q.length → step s = .refused .queueFull)

/-- R100 (b), R111, R112: the case that the table's masks and conditions select on the wire's own flags field is the
case that the rules' precedence performs: a step on a receive interface is the receive operation of the sequencer's
role, for every wire, every register value and every sequencer, foreign labels included (while a drain is under way no
request is taken, log entry 15). -/
def Obligations.ReceiveInterfaceIsReceiveOperation : Prop :=
  ∀ (s : State) (n : Nat) (e : Seq) (w : Wire) (rest : List Request),
    s.handover = [] → s.draining = false → s.inbox = .receive n w :: rest → s.seqs[n]? = some e →
    step s = exec (recvInstr n w e.role) { s with inbox := rest }

/-- The byte form of R115 decodes to the instruction it was written from, whatever follows it. The form of a line with a
reserved number is the model's choice, log entry 18. -/
def Obligations.ScriptLineRoundTrip : Prop :=
  ∀ (b : Binding) (i : Instr) (line rest : List Byte), WellFormed b i = true → encodeLine i = some line →
    decodeLine b (line ++ rest) = .ok (i, rest)

/-- The other direction: every script line that decodes is the byte form of a well-formed instruction, so no line has
two spellings (R115, with the zero padding the notation asks for; log entries 16 and 18). -/
def Obligations.ScriptLineIsUnique : Prop :=
  ∀ (b : Binding) (bytes rest : List Byte) (i : Instr), decodeLine b bytes = .ok (i, rest) →
    WellFormed b i = true ∧ ∃ line, encodeLine i = some line ∧ bytes = line ++ rest

/-- The segment formats SEG and SEG.BUILT decode from the wires they encode to. That a codec wire is SEG.BUILT where it has
that row's pattern and whole payload bytes and SEG otherwise is the model's choice, log entry 9: R117's SEG matches
every pattern. -/
def Obligations.SegmentFormsRoundTrip : Prop :=
  ∀ (b : Binding) (seqs : List Seq),
    (∀ (hdr : BitVec 160) (tail : Wire), WellFormed b (.seg hdr tail) = true →
      decodeRequest seqs (encode b (.seg hdr tail)) = .ok (.seg hdr tail, none)) ∧
    (∀ (src dst : Port) (sq ak : Word32) (f : FlagSet) (wi ck up : BitVec 16) (pl : List Byte),
      decodeRequest seqs (encode b (.segBuilt src dst sq ak f wi ck up pl)) =
        .ok (.segBuilt src dst sq ak f wi ck up pl, none))

/-- The dispatch cases decode from the wires they encode to, at a sequencer whose registers make the case the first to
match (R111, R112, R15). -/
def Obligations.DispatchFormsRoundTrip : Prop :=
  ∀ (b : Binding) (seqs : List Seq) (n : Nat) (e : Seq) (g : Segment) (c : RxCase),
    seqs[n]? = some e → selectCase e (flags9 g.flags) g = c →
    decodeRequest seqs (encode b (c.instr n g)) = .ok (c.instr n g, none)

/-- A few lines and wires written out from the spec's encodings (30_encoding.md R115, 95_test_vectors.md P1, P2, X12)
decode to the instructions they stand for. -/
def Obligations.SampleWordsDecode : Prop :=
  decodeLine .standard [0x04, 0x00, 0x50] = .ok (.iOpen 0 80, []) ∧
  decodeLine .standard [0x05, 0x00, 0x50, 0x00, 0x01, 0x78] = .ok (.iSend 0 80 [0x78], []) ∧
  decodeLine .standard [0x07] = .ok (.iExpire 0, []) ∧
  decodeLine .standard [0x0B, 0x00, 0x50, 0x01] = .ok (.nRegr 80 1, []) ∧
  decodeLine .standard [0x0C, 0x30, 0x39, 0x00, 0x50, 0x00, 0x03, 0xA0] =
    .ok (.nXmit [true, false, true] 12345 80, []) ∧
  decodeCodecWire (wireOfBytes [0x00, 0x50, 0x30, 0x39, 0, 0, 0x13, 0x88, 0, 0, 0x03, 0xE9, 0xAF, 0x07,
      0, 0, 0, 0, 0, 0]) =
    .seg 0x005030390000138800_0003E9AF07000000000000 []

/-- R49: every piece of the spec's state at reset, for any parameters and any sequencers; State.reset is the instance
that log entries 1 and 2 name. -/
def Obligations.ResetValues : Prop :=
  (∀ (p : Params) (cs : List SeqConfig),
    (State.resetWith p cs).itab = [] ∧ (State.resetWith p cs).rtab = [] ∧ (State.resetWith p cs).q = [] ∧
    (State.resetWith p cs).par = p ∧ (State.resetWith p cs).seqs.length = cs.length ∧
    ∀ (n : Nat) (c : SeqConfig), cs[n]? = some c → (State.resetWith p cs).seqs[n]? = some
      { role := c.role, port := c.port, iss := c.iss,
        state := if c.role = .initiator then .closed else .listening,
        sndSeq := c.iss, rcvAck := 0, finOwed := false }) ∧
  State.reset = State.resetWith Params.default SeqConfig.pair

/-- The invariant of R56 (a) to (c), the Responder's half of (d), the typed canonical tables of R44 and the shape of
emitted records (R46) hold at reset, and no drain is under way, whatever the parameters and the sequencers. -/
def Obligations.ResetEstablishesTheInvariant : Prop :=
  ∀ (p : Params) (cs : List SeqConfig), Inv (State.resetWith p cs)

/-- R56 (a), (b), (c), the Responder's half of (d); R44; R46: every step keeps the invariant, and with it that a drain under
way has something to deliver and nothing to hand over (the flag is log entry 15). -/
def Obligations.StepKeepsTheInvariant : Prop :=
  ∀ s t : State, Inv s → step s = .next t → Inv t

/-- R48: no step changes a parameter, the number of sequencers, or a sequencer's `ROLE`, `PORT` or `ISS`. -/
def Obligations.StepKeepsConstants : Prop :=
  ∀ s t : State, step s = .next t → sameConstants s t

/-- R191 and the chain of R222: no step lowers a sequencer's rank, but for an I.OPEN that takes an Initiator from CLOSED
to SYN-SENT. -/
def Obligations.LifecycleIsMonotone : Prop :=
  ∀ s t : State, sequencersOk s → step s = .next t →
    ∀ (m : Nat) (e e' : Seq), s.seqs[m]? = some e → t.seqs[m]? = some e' →
      rank e ≤ rank e' ∨ (e.role = .initiator ∧ e.state = .closed ∧ e'.state = .synSent)

/-- R180 and R225 (the source's idempotence of a terminal state): in CLOSED no wire on either receive interface changes a
register or emits a record. -/
def Obligations.ClosedIsInert : Prop :=
  ∀ (s t : State) (n : Nat) (e : Seq) (w : Wire), s.seqs[n]? = some e → e.state = .closed →
    (e.role = .responder → e.finOwed = false) → exec (recvInstr n w e.role) s = .next t →
    t.seqs = s.seqs ∧ t.handover = s.handover ∧ t.q = s.q ∧ t.resp.tx = []

/-- R189: an Initiator's `snd_seq` advances only in its own I.SEND, by the payload byte count. -/
def Obligations.InitiatorSequenceAdvancesOnlyInSend : Prop :=
  ∀ (i : Instr) (s t : State) (m : Nat) (e e' : Seq), exec i s = .next t → s.seqs[m]? = some e →
    t.seqs[m]? = some e' → e.role = .initiator →
    e'.sndSeq = e.sndSeq ∨
      ∃ dst payload, i = .iSend m dst payload ∧ e'.sndSeq = e.sndSeq + BitVec.ofNat 32 payload.length

/-- R83 (a): an instruction changes the registers of no sequencer but the one it is addressed to (for N.DELIVER, and the one
delivery a step of N.DRAIN makes, log entry 15, the owner of the head record's destination port), and none at all for
the codec, the registrations, N.XMIT and the reserved numbers. -/
def Obligations.OnlyTheAddressedSequencerChanges : Prop :=
  ∀ (i : Instr) (s t : State) (m : Nat), exec i s = .next t → touched s i ≠ some m →
    t.seqs[m]? = s.seqs[m]?

/-- R55: which registers each operation of a sequencer may write and how many records it may emit; an operation that
ends in an error status writes nothing and emits nothing (R279). -/
def Obligations.RegisterAccessByOperation : Prop :=
  ∀ (s t : State) (n : Nat) (e e' : Seq), s.seqs[n]? = some e → t.seqs[n]? = some e' →
    (∀ dst, exec (.iOpen n dst) s = .next t → e' = { e with state := e'.state } ∧
      (t.resp.status = some .ok → t.resp.tx.length = 1) ∧
      (t.resp.status ≠ some .ok → e' = e ∧ t.resp.tx = [] ∧ t.handover = s.handover)) ∧
    (∀ dst pl, exec (.iSend n dst pl) s = .next t → e' = { e with sndSeq := e'.sndSeq } ∧
      (t.resp.status = some .ok → t.resp.tx.length = 1) ∧
      (t.resp.status ≠ some .ok → e' = e ∧ t.resp.tx = [] ∧ t.handover = s.handover)) ∧
    (∀ dst, exec (.iClose n dst) s = .next t → e' = { e with state := e'.state } ∧
      (t.resp.status = some .ok → t.resp.tx.length = 1) ∧
      (t.resp.status ≠ some .ok → e' = e ∧ t.resp.tx = [] ∧ t.handover = s.handover)) ∧
    (exec (.iExpire n) s = .next t → e' = { e with state := e'.state } ∧ t.resp.tx = [] ∧
      t.handover = s.handover ∧ (t.resp.status ≠ some .ok → e' = e)) ∧
    (∀ w, exec (.iRecv n w) s = .next t → e' = { e with state := e'.state, rcvAck := e'.rcvAck } ∧
      t.resp.tx.length ≤ 1 ∧
      (t.resp.status ≠ some .ok → e' = e ∧ t.resp.tx = [] ∧ t.handover = s.handover)) ∧
    (∀ w, exec (.rRecv n w) s = .next t →
      e' = { e with state := e'.state, sndSeq := e'.sndSeq, rcvAck := e'.rcvAck, finOwed := e'.finOwed } ∧
      t.resp.tx.length ≤ 2 ∧ (t.resp.tx.length = 2 → s.par.finPolicy = .eager) ∧
      (t.resp.status ≠ some .ok → e' = e ∧ t.resp.tx = [] ∧ t.handover = s.handover))

/-- The frame of the link's state (R55, R30): an instruction that is no link operation leaves both tables and the queue
as they are; a link operation leaves the records that wait for their hand-over; only N.DRAIN writes whether a drain is
under way; none touches the inbox or a parameter. -/
def Obligations.LinkStateFrame : Prop :=
  ∀ (i : Instr) (s t : State), exec i s = .next t →
    (isLinkOp i = false → t.itab = s.itab ∧ t.rtab = s.rtab ∧ t.q = s.q) ∧
    (isLinkOp i = true → t.handover = s.handover) ∧
    (i ≠ .nDrain → t.draining = s.draining) ∧
    t.inbox = s.inbox ∧ t.par = s.par

/-- R307, with R176 and R211: what a receive operation does is a function of the flags (for a Responder ACK, PSH, SYN
and FIN alone), `seq`, `src_port`, the payload byte count and, for a Responder, `ack`; every other field may differ.
Stated for the default `BARE_ACK_UPDATE`, which reads nothing. -/
def Obligations.UnreadFieldsDoNotMatter : Prop :=
  ∀ (s : State) (n : Nat) (w w' : Wire) (g g' : Segment), codecDecode w = some g → codecDecode w' = some g' →
    g'.seq = g.seq → g'.srcPort = g.srcPort → g'.payload.length = g.payload.length →
    (s.par.bareAck = .identity → g'.flags = g.flags → exec (.iRecv n w') s = exec (.iRecv n w) s) ∧
    (g'.ack = g.ack → g'.flags.ack = g.flags.ack → g'.flags.psh = g.flags.psh → g'.flags.syn = g.flags.syn →
      g'.flags.fin = g.flags.fin → exec (.rRecv n w') s = exec (.rRecv n w) s)

/-- R33, R270: the codes of the state labels and of the statuses. -/
def Obligations.StateAndStatusCodes : Prop :=
  (stateCode .closed = 0x0 ∧ stateCode .listening = 0x1 ∧ stateCode .synSent = 0x2 ∧ stateCode .synReceived = 0x3 ∧
    stateCode .synAckReceived = 0x4 ∧ stateCode .established = 0x5 ∧ stateCode .dataReceived = 0x6 ∧
    stateCode .finWait1 = 0x7 ∧ stateCode .finWait2 = 0x8 ∧ stateCode .timeWait = 0x9 ∧
    stateCode .closeWait = 0xA ∧ stateCode .lastAck = 0xB) ∧
  (∀ c : ConnState, (stateCode c).toNat < 0xC) ∧
  (statusCode .ok = 0 ∧ statusCode .malformedSegment = 1 ∧ statusCode .notEstablished = 2 ∧
    statusCode .unaddressedSegment = 3 ∧ statusCode .unknownDestination = 4 ∧ statusCode .invalidState = 5) ∧
  (∀ st : Status, (statusCode st).toNat < 6)

/-- R53: the status interface reads the registers, `PORT` and `ROLE` of a sequencer. -/
def Obligations.StatusInterfaceReads : Prop :=
  ∀ (s : State) (n : Nat) (e : Seq), s.seqs[n]? = some e →
    statusRead s n = some { stateCode := stateCode e.state, sndSeq := e.sndSeq, rcvAck := e.rcvAck,
                            finOwed := e.finOwed, port := e.port, role := e.role }
end

