-- ==== Sys2Proof/Laws/State.lean ====
section
/-! SUPPORT. The fields of the state after each named update, and of a sequencer's result: true by rfl, for simp. -/

namespace Sys2Proof.Laws

open Sys2Proof Sys2Proof.Machine

@[simp] theorem answer_seqs (s : State) (st : Status) : (s.answer st).seqs = s.seqs := rfl
@[simp] theorem answer_itab (s : State) (st : Status) : (s.answer st).itab = s.itab := rfl
@[simp] theorem answer_rtab (s : State) (st : Status) : (s.answer st).rtab = s.rtab := rfl
@[simp] theorem answer_q (s : State) (st : Status) : (s.answer st).q = s.q := rfl
@[simp] theorem answer_par (s : State) (st : Status) : (s.answer st).par = s.par := rfl
@[simp] theorem answer_handover (s : State) (st : Status) : (s.answer st).handover = s.handover := rfl
@[simp] theorem answer_draining (s : State) (st : Status) : (s.answer st).draining = s.draining := rfl
@[simp] theorem answer_inbox (s : State) (st : Status) : (s.answer st).inbox = s.inbox := rfl
@[simp] theorem answer_status (s : State) (st : Status) : (s.answer st).resp.status = some st := rfl
@[simp] theorem answer_tx (s : State) (st : Status) : (s.answer st).resp.tx = [] := rfl
@[simp] theorem answer_record (s : State) (st : Status) : (s.answer st).resp.record = none := rfl
@[simp] theorem answer_wire (s : State) (st : Status) : (s.answer st).resp.wire = none := rfl

@[simp] theorem answerWire_seqs (s : State) (w : Wire) : (s.answerWire w).seqs = s.seqs := rfl
@[simp] theorem answerWire_itab (s : State) (w : Wire) : (s.answerWire w).itab = s.itab := rfl
@[simp] theorem answerWire_rtab (s : State) (w : Wire) : (s.answerWire w).rtab = s.rtab := rfl
@[simp] theorem answerWire_q (s : State) (w : Wire) : (s.answerWire w).q = s.q := rfl
@[simp] theorem answerWire_par (s : State) (w : Wire) : (s.answerWire w).par = s.par := rfl
@[simp] theorem answerWire_handover (s : State) (w : Wire) : (s.answerWire w).handover = s.handover := rfl
@[simp] theorem answerWire_draining (s : State) (w : Wire) : (s.answerWire w).draining = s.draining := rfl
@[simp] theorem answerWire_inbox (s : State) (w : Wire) : (s.answerWire w).inbox = s.inbox := rfl

@[simp] theorem answerRecord_seqs (s : State) (r : Option Segment) : (s.answerRecord r).seqs = s.seqs := by
  cases r <;> rfl
@[simp] theorem answerRecord_itab (s : State) (r : Option Segment) : (s.answerRecord r).itab = s.itab := by
  cases r <;> rfl
@[simp] theorem answerRecord_rtab (s : State) (r : Option Segment) : (s.answerRecord r).rtab = s.rtab := by
  cases r <;> rfl
@[simp] theorem answerRecord_q (s : State) (r : Option Segment) : (s.answerRecord r).q = s.q := by
  cases r <;> rfl
@[simp] theorem answerRecord_par (s : State) (r : Option Segment) : (s.answerRecord r).par = s.par := by
  cases r <;> rfl
@[simp] theorem answerRecord_handover (s : State) (r : Option Segment) :
    (s.answerRecord r).handover = s.handover := by
  cases r <;> rfl
@[simp] theorem answerRecord_draining (s : State) (r : Option Segment) :
    (s.answerRecord r).draining = s.draining := by
  cases r <;> rfl
@[simp] theorem answerRecord_inbox (s : State) (r : Option Segment) : (s.answerRecord r).inbox = s.inbox := by
  cases r <;> rfl

@[simp] theorem commit_seqs (s : State) (ep : Nat) (r : SeqResult) :
    (s.commit ep r).seqs = s.seqs.set ep r.seq := rfl
@[simp] theorem commit_itab (s : State) (ep : Nat) (r : SeqResult) : (s.commit ep r).itab = s.itab := rfl
@[simp] theorem commit_rtab (s : State) (ep : Nat) (r : SeqResult) : (s.commit ep r).rtab = s.rtab := rfl
@[simp] theorem commit_q (s : State) (ep : Nat) (r : SeqResult) : (s.commit ep r).q = s.q := rfl
@[simp] theorem commit_par (s : State) (ep : Nat) (r : SeqResult) : (s.commit ep r).par = s.par := rfl
@[simp] theorem commit_handover (s : State) (ep : Nat) (r : SeqResult) :
    (s.commit ep r).handover = s.handover ++ r.tx := rfl
@[simp] theorem commit_draining (s : State) (ep : Nat) (r : SeqResult) : (s.commit ep r).draining = s.draining := rfl
@[simp] theorem commit_inbox (s : State) (ep : Nat) (r : SeqResult) : (s.commit ep r).inbox = s.inbox := rfl
@[simp] theorem commit_status (s : State) (ep : Nat) (r : SeqResult) :
    (s.commit ep r).resp.status = some r.status := rfl
@[simp] theorem commit_tx (s : State) (ep : Nat) (r : SeqResult) : (s.commit ep r).resp.tx = r.tx := rfl

@[simp] theorem done_status (e : Seq) (tx : List DeliveryRecord) : (done e tx).status = .ok := rfl
@[simp] theorem done_seq (e : Seq) (tx : List DeliveryRecord) : (done e tx).seq = e := rfl
@[simp] theorem done_tx (e : Seq) (tx : List DeliveryRecord) : (done e tx).tx = tx := rfl
@[simp] theorem raise_status (st : Status) (e : Seq) : (raise st e).status = st := rfl
@[simp] theorem raise_seq (st : Status) (e : Seq) : (raise st e).seq = e := rfl
@[simp] theorem raise_tx (st : Status) (e : Seq) : (raise st e).tx = [] := rfl

@[simp] theorem emit_srcPort (p : Params) (e : Seq) (f : FlagSet) (dst : Port) (sq ak : Word32) (pl : List Byte) :
    (emit p e f dst sq ak pl).srcPort = e.port := rfl
@[simp] theorem emit_dstPort (p : Params) (e : Seq) (f : FlagSet) (dst : Port) (sq ak : Word32) (pl : List Byte) :
    (emit p e f dst sq ak pl).dstPort = dst := rfl
@[simp] theorem emit_wire (p : Params) (e : Seq) (f : FlagSet) (dst : Port) (sq ak : Word32) (pl : List Byte) :
    (emit p e f dst sq ak pl).wire = codecEncode (buildSegment p e f dst sq ak pl) := rfl

end Sys2Proof.Laws
end

