-- ==== Sys2Proof/Laws/Ops.lean ====
section
/-! SUPPORT. What each shared operation can do, said once: the port tables, the unaddressed check, an operation on one
sequencer, a registration. -/

namespace Sys2Proof.Laws

open Sys2Proof Sys2Proof.Machine

/-- Reading a port table after a registration (R241: last registration wins; the other ports as before). -/
theorem tableGet_tableSet (t : PortTable) (k k' : Port) (n : Nat) :
    tableGet (tableSet t k n) k' = if k = k' then some n else tableGet t k' := by
  induction t with
  | nil => simp [tableSet, tableGet]
  | cons a t ih =>
    obtain ⟨p, m⟩ := a
    by_cases hlt : k < p
    · simp [tableSet, tableGet, hlt]
    · by_cases hkp : k = p
      · subst hkp
        by_cases hk : k = k' <;> simp [tableSet, tableGet, hk]
      · by_cases hk : k = k'
        · subst hk
          have hpk : p ≠ k := fun h => hkp h.symm
          simp [tableSet, tableGet, hlt, hkp, hpk, ih]
        · simp [tableSet, tableGet, hlt, hkp, hk, ih]

/-- The entries of a table after a registration: the new one, or one that stood before. -/
theorem mem_tableSet (t : PortTable) (k : Port) (n : Nat) (a : Port × Nat) (h : a ∈ tableSet t k n) :
    a = (k, n) ∨ a ∈ t := by
  induction t with
  | nil => simpa [tableSet] using h
  | cons b t ih =>
    obtain ⟨p, m⟩ := b
    simp only [tableSet] at h
    split at h
    · simpa using h
    · split at h
      · simp only [List.mem_cons] at h ⊢
        rcases h with h | h
        · exact .inl h
        · exact .inr (.inr h)
      · simp only [List.mem_cons] at h ⊢
        rcases h with h | h
        · exact .inr (.inl h)
        · rcases ih h with h | h
          · exact .inl h
          · exact .inr (.inr h)

/-- The canonical form, unfolded once: the head is below every later port. -/
theorem tableWf_cons_iff (p : Port) (m : Nat) (t : PortTable) :
    tableWf ((p, m) :: t) = true ↔ (∀ a ∈ t.head?, p < a.1) ∧ tableWf t = true := by
  cases t with
  | nil => simp [tableWf]
  | cons b t => obtain ⟨q, j⟩ := b; simp [tableWf]

/-- A registration keeps the canonical form. -/
theorem tableSet_wf (t : PortTable) (k : Port) (n : Nat) (h : tableWf t = true) : tableWf (tableSet t k n) = true := by
  induction t with
  | nil => rfl
  | cons b t ih =>
    obtain ⟨p, m⟩ := b
    have ht := (tableWf_cons_iff p m t).mp h
    simp only [tableSet]
    split
    · rename_i hlt
      simp [tableWf_cons_iff k n, h, hlt]
    · split
      · rename_i hkp
        subst hkp
        exact (tableWf_cons_iff k n t).mpr ht
      · rename_i hlt hkp
        refine (tableWf_cons_iff p m _).mpr ⟨?_, ih ht.2⟩
        have hpk : p < k := by bv_omega
        cases t with
        | nil => simpa [tableSet] using hpk
        | cons c t =>
          obtain ⟨q, j⟩ := c
          have hpq : p < q := ht.1 (q, j) rfl
          simp only [tableSet]
          split
          · simpa using hpk
          · split
            · simpa using hpk
            · simpa using hpq

/-- A lookup that answers found an entry of the table. -/
theorem tableGet_mem (t : PortTable) (k : Port) (n : Nat) (h : tableGet t k = some n) : (k, n) ∈ t := by
  induction t with
  | nil => simp [tableGet] at h
  | cons b t ih =>
    obtain ⟨p, m⟩ := b
    simp only [tableGet] at h
    split at h
    · rename_i hp
      simp_all
    · exact List.mem_cons_of_mem _ (ih h)

/-- The unaddressed check: an error and nothing else, or the step it guards (R178). -/
theorem addressed_cases (dst : Port) (e : Seq) (r : SeqResult) :
    (dst = 0 ∧ addressed dst e r = raise .unaddressedSegment e) ∨ (dst ≠ 0 ∧ addressed dst e r = r) := by
  unfold addressed
  split <;> simp_all

@[simp] theorem addressed_of_ne_zero (dst : Port) (e : Seq) (r : SeqResult) (h : dst ≠ 0) :
    addressed dst e r = r := if_neg h

/-- What an operation on one sequencer can answer with a next state (R110, R55). -/
theorem onSeq_next {role : Role} {ep : Nat} {f : Seq → SeqResult} {s t : State}
    (h : onSeq role ep f s = .next t) :
    ∃ e, s.seqs[ep]? = some e ∧
      ((e.role ≠ role ∧ t = s.answer .invalidState) ∨
       (e.role = role ∧ ownState e.role e.state = true ∧ t = s.commit ep (f e))) := by
  unfold onSeq at h
  split at h
  · simp at h
  · rename_i e he
    refine ⟨e, he, ?_⟩
    split at h
    · rename_i hr
      exact .inl ⟨hr, by simpa using h.symm⟩
    · rename_i hr
      split at h
      · simp at h
      · rename_i ho
        exact .inr ⟨by simpa using hr, by simpa using ho, by simpa using h.symm⟩

/-- When an operation on one sequencer runs. -/
theorem onSeq_eq {role : Role} {ep : Nat} {f : Seq → SeqResult} {s : State} {e : Seq}
    (he : s.seqs[ep]? = some e) (hr : e.role = role) (ho : ownState role e.state = true) :
    onSeq role ep f s = .next (s.commit ep (f e)) := by
  subst hr
  simp [onSeq, he, ho]

/-- An operation on a sequencer of the other role answers InvalidState (R110, R221). -/
theorem onSeq_otherRole {role : Role} {ep : Nat} {f : Seq → SeqResult} {s : State} {e : Seq}
    (he : s.seqs[ep]? = some e) (hr : e.role ≠ role) : onSeq role ep f s = .next (s.answer .invalidState) := by
  simp [onSeq, he, hr]

/-- The payload bound goes first; within it the operation is the plain one. -/
theorem onSeqWithin_next {b : Bool} {role : Role} {ep : Nat} {f : Seq → SeqResult} {s t : State}
    (h : onSeqWithin b role ep f s = .next t) : b = false ∧ onSeq role ep f s = .next t := by
  cases b <;> simp_all [onSeqWithin]

@[simp] theorem onSeqWithin_false (role : Role) (ep : Nat) (f : Seq → SeqResult) (s : State) :
    onSeqWithin false role ep f s = onSeq role ep f s := rfl

/-- A payload over the bound is refused, whatever the sequencer (R42). -/
@[simp] theorem onSeqWithin_true (role : Role) (ep : Nat) (f : Seq → SeqResult) (s : State) :
    onSeqWithin true role ep f s = .refused .payloadOverMax := rfl

/-- What a registration can answer with a next state (R241, R242). -/
theorem registrable_next {role : Role} {inst : Nat} {s s' t : State} (h : registrable role inst s s' = .next t) :
    t = s' ∧ ∃ e, s.seqs[inst]? = some e ∧ e.role = role := by
  unfold registrable at h
  split at h
  · simp at h
  · rename_i e he
    split at h
    · rename_i hr
      exact ⟨by simpa using h.symm, e, he, hr⟩
    · simp at h

/-- What N.XMIT can answer with a next state (R243). -/
theorem execNXmit_next {w : Wire} {src dst : Port} {s t : State} (h : execNXmit w src dst s = .next t) :
    t = State.answer { s with q := s.q ++ [{ wire := w, srcPort := src, dstPort := dst }] } .ok := by
  unfold execNXmit at h
  split at h
  · simpa using h.symm
  · simp at h

@[simp] theorem overLimit_none (n : Nat) : overLimit none n = false := rfl

@[simp] theorem queueHasRoom_zero (s : State) : queueHasRoom s 0 = true := rfl

end Sys2Proof.Laws
end

