-- ==== Sys2Proof/Laws/Receive.lean ====
section
/-! SUPPORT. What a receive operation can do, said once for each role: the result is the action of one case, under
that case's condition (41_initiator.md R180 to R187, 42_responder.md R212 to R219). Every later fact about a received
segment is a case split on these. -/

namespace Sys2Proof.Laws

open Sys2Proof Sys2Proof.Machine

/-- The Initiator's list (R111): exactly one case's action. -/
theorem rowIC0_cases (p : Params) (e : Seq) (g : Segment) :
    (e.state = .closed ∧ rowIC0 p e g = done e []) ∨
    (preEst e.state = true ∧ g.flags.syn = true ∧ g.flags.ack = true ∧ rowIC0 p e g = actIC1 p e g) ∨
    (e.state = .synAckReceived ∧ g.flags.ack = true ∧ rowIC0 p e g = actIC2 e) ∨
    (estLike e.state = true ∧ g.flags.psh = true ∧ rowIC0 p e g = actIC3 p e g) ∨
    (e.state = .finWait1 ∧ g.flags.ack = true ∧ rowIC0 p e g = actIC4 e) ∨
    (e.state ≠ .closed ∧ g.flags.fin = true ∧ rowIC0 p e g = actIC5 p e g) ∨
    (e.state ≠ .closed ∧ isBareAck g.flags = true ∧ rowIC0 p e g = actIC6 p e g) ∨
    (e.state ≠ .closed ∧ rowIC0 p e g = done e []) := by
  unfold rowIC0 rowIC1 rowIC2 rowIC3 rowIC4 rowIC5 rowIC6 rowIC7
  split_ifs <;> simp_all

/-- The Responder's list (R112): exactly one case's action. -/
theorem rowRC1_cases (p : Params) (e : Seq) (g : Segment) :
    (e.state = .listening ∧ g.flags.syn = true ∧ rowRC1 p e g = actRC1 p e g) ∨
    (e.state = .synReceived ∧ g.flags.ack = true ∧ rowRC1 p e g = actRC1a e) ∨
    (estLike e.state = true ∧ g.flags.psh = true ∧ rowRC1 p e g = actRC2 p e g) ∨
    (estLike e.state = true ∧ g.flags.fin = true ∧ rowRC1 p e g = actRC4 p e g) ∨
    (e.state = .lastAck ∧ g.flags.ack = true ∧ g.ack = e.sndSeq ∧ rowRC1 p e g = actRC6 e) ∨
    (e.finOwed = true ∧ rowRC1 p e g = actRC5 p e g) ∨
    (e.finOwed = false ∧ rowRC1 p e g = done e []) := by
  unfold rowRC1 rowRC1a rowRC2 rowRC3 rowRC4 rowRC6 rowRC5 rowRC7
  split_ifs <;> simp_all

/-- The receive operation of the Initiator: the length test, then the list (R176). -/
theorem initiatorReceive_cases (p : Params) (w : Wire) (e : Seq) :
    (codecDecode w = none ∧ initiatorReceive p w e = raise .malformedSegment e) ∨
    (∃ g, codecDecode w = some g ∧ initiatorReceive p w e = rowIC0 p e g) := by
  unfold initiatorReceive
  split
  · exact .inl ⟨by assumption, rfl⟩
  · exact .inr ⟨_, by assumption, rfl⟩

/-- The receive operation of the Responder: the length test, then the list (R211). -/
theorem responderReceive_cases (p : Params) (w : Wire) (e : Seq) :
    (codecDecode w = none ∧ responderReceive p w e = raise .malformedSegment e) ∨
    (∃ g, codecDecode w = some g ∧ responderReceive p w e = rowRC1 p e g) := by
  unfold responderReceive
  split
  · exact .inl ⟨by assumption, rfl⟩
  · exact .inr ⟨_, by assumption, rfl⟩

/-- DECODE fails exactly on a wire shorter than 160 bits (R142). -/
theorem codecDecode_of_short {w : Wire} (h : w.length < 160) : codecDecode w = none := if_pos h

/-- DECODE of a wire with a whole header (R142). -/
theorem codecDecode_of_long {w : Wire} (h : 160 ≤ w.length) : codecDecode w = some (decodeFields w) :=
  if_neg (by omega)

end Sys2Proof.Laws
end

