-- ==== Sys2Proof/Laws/Link.lean ====
section
/-! SUPPORT. What one delivery can do (43_substrate.md R244), and one turn of a drain (R245). -/

namespace Sys2Proof.Laws

open Sys2Proof Sys2Proof.Machine

/-- The owner of a port comes from the table of its role (R80). -/
theorem route_cases (s : State) (dst : Port) :
    (∃ n, tableGet s.rtab dst = some n ∧ route s dst = some (.responder, n)) ∨
    (tableGet s.rtab dst = none ∧ ∃ n, tableGet s.itab dst = some n ∧ route s dst = some (.initiator, n)) ∨
    (tableGet s.rtab dst = none ∧ tableGet s.itab dst = none ∧ route s dst = none) := by
  unfold route
  cases h : tableGet s.rtab dst with
  | some n => exact .inl ⟨n, rfl, rfl⟩
  | none =>
    cases h' : tableGet s.itab dst with
    | some n => exact .inr (.inl ⟨rfl, n, rfl, rfl⟩)
    | none => exact .inr (.inr ⟨rfl, rfl, rfl⟩)

/-- What a delivery to an owner can end in with a state (R244). -/
theorem deliverTo_delivered {role : Role} {inst : Nat} {w : Wire} {s t : State} {st : Status}
    (h : deliverTo role inst w s = .delivered t st) :
    ∃ e, s.seqs[inst]? = some e ∧ e.role = role ∧ wireOverMax s.par w = false ∧ ownState role e.state = true ∧
      queueHasRoom s (receiveOf role s.par w e).tx.length = true ∧
      t = { s with seqs := s.seqs.set inst (receiveOf role s.par w e).seq,
                   q := s.q ++ (receiveOf role s.par w e).tx } ∧
      st = (receiveOf role s.par w e).status := by
  unfold deliverTo at h
  split at h
  · simp at h
  · rename_i e he
    refine ⟨e, he, ?_⟩
    split_ifs at h with hr hw ho
    · dsimp only at h
      split at h
      · rename_i hq
        simp only [Delivery.delivered.injEq] at h
        have hr' : e.role = role := by simpa using hr
        refine ⟨hr', by simpa using hw, ?_, hq, h.1.symm, h.2.symm⟩
        rw [← hr']; simpa using ho
      · simp at h

/-- What a delivery to an owner in a label of its role does, refusals included (R244, R289). -/
theorem deliverTo_eq {role : Role} {inst : Nat} {w : Wire} {s : State} {e : Seq}
    (he : s.seqs[inst]? = some e) (hr : e.role = role) (ho : ownState role e.state = true) :
    deliverTo role inst w s =
      if wireOverMax s.par w then .stopped .payloadOverMax
      else if queueHasRoom s (receiveOf role s.par w e).tx.length then
        .delivered { s with seqs := s.seqs.set inst (receiveOf role s.par w e).seq,
                            q := s.q ++ (receiveOf role s.par w e).tx } (receiveOf role s.par w e).status
      else .stopped .queueFull := by
  subst hr
  simp [deliverTo, he, ho]

/-- What one delivery can do (R244): nothing on an empty queue; else the head is gone, and either it had no owner or
its owner received it. -/
theorem deliverNext_cases (s : State) :
    (s.q = [] ∧ deliverNext s = .nothing) ∨
    (∃ r rest, s.q = r :: rest ∧ route s r.dstPort = none ∧
      deliverNext s = .delivered { s with q := rest } .unknownDestination) ∨
    (∃ r rest role inst, s.q = r :: rest ∧ route s r.dstPort = some (role, inst) ∧
      deliverNext s = deliverTo role inst r.wire { s with q := rest }) := by
  unfold deliverNext
  cases hq : s.q with
  | nil => exact .inl ⟨rfl, rfl⟩
  | cons r rest =>
    cases hr : route s r.dstPort with
    | none => exact .inr (.inl ⟨r, rest, rfl, hr, by simp only [hr]⟩)
    | some a => exact .inr (.inr ⟨r, rest, a.1, a.2, rfl, hr, by simp only [hr]⟩)

/-- A delivery to an owner always is one. -/
theorem deliverTo_ne_nothing (role : Role) (inst : Nat) (w : Wire) (s : State) :
    deliverTo role inst w s ≠ .nothing := by
  unfold deliverTo
  dsimp only
  split
  · simp
  · split_ifs <;> simp

/-- There is nothing to deliver exactly on an empty queue. -/
theorem deliverNext_nothing_iff (s : State) : deliverNext s = .nothing ↔ s.q = [] := by
  rcases deliverNext_cases s with ⟨hq, h⟩ | ⟨r, rest, hq, _, h⟩ | ⟨r, rest, role, inst, hq, _, h⟩
  · simp [h, hq]
  · simp [h, hq]
  · simp [h, hq, deliverTo_ne_nothing]

/-- A delivery keeps whether a drain is under way. -/
theorem deliverNext_draining {s s' : State} {st : Status} (h : deliverNext s = .delivered s' st) :
    s'.draining = s.draining := by
  rcases deliverNext_cases s with ⟨_, h'⟩ | ⟨r, rest, _, _, h'⟩ | ⟨r, rest, role, inst, _, _, h'⟩ <;> rw [h'] at h
  · cases h
  · simp only [Delivery.delivered.injEq] at h
    rw [← h.1]
  · obtain ⟨e, _, _, _, _, _, rfl, _⟩ := deliverTo_delivered h
    rfl

/-- One turn of a drain is one N.DELIVER that notes whether there is more to deliver (R245). -/
theorem execNDrain_eq (s : State) :
    execNDrain s =
      match execNDeliver s with
      | .next t => .next { t with draining := !t.q.isEmpty }
      | .fault r => .fault r
      | .refused r => .refused r := by
  cases h : deliverNext s with
  | nothing => simp [execNDrain, execNDeliver, h, State.answer, (deliverNext_nothing_iff s).mp h]
  | delivered s' st => simp [execNDrain, execNDeliver, h, State.answer]
  | stopped r => simp [execNDrain, execNDeliver, h]

end Sys2Proof.Laws
end

