-- ==== Sys2Proof/Laws/PerInstr.lean ====
section
/-! SUPPORT. The family ScriptForm: a script line begins with a byte whose high half is 0 and whose low half is the
operation number (30_encoding.md R108, R115). One lemma per constructor. -/

namespace Sys2Proof.Laws

open Sys2Proof Sys2Proof.Machine

/-- Byte 0 of an instruction's script line, where it has one, is its operation number (R115). -/
def ScriptForm.Statement (i : Instr) : Prop :=
  ∀ l, encodeLine i = some l → ∃ op, opNumber i = some op ∧ l.head? = some (op.zeroExtend 8)

/-- An instruction with an operation number `op` whose line starts with that number. -/
theorem scriptForm_of_line {i : Instr} {op : BitVec 4} {bs : List Byte} (hn : opNumber i = some op)
    (hl : encodeLine i = some (op.zeroExtend 8 :: bs)) : ScriptForm.Statement i := by
  intro l h
  rw [hl] at h
  cases h
  exact ⟨op, hn, rfl⟩

/-- An instruction without a script line. -/
theorem scriptForm_of_none {i : Instr} (hl : encodeLine i = none) : ScriptForm.Statement i := by
  intro l h
  rw [hl] at h
  cases h

theorem ScriptForm.encode (g : Segment) : ScriptForm.Statement (.encode g) :=
  scriptForm_of_line rfl rfl
theorem ScriptForm.decode (w : Wire) : ScriptForm.Statement (.decode w) :=
  scriptForm_of_line rfl rfl
theorem ScriptForm.iOpen (ep : Nat) (dst : Port) : ScriptForm.Statement (.iOpen ep dst) :=
  scriptForm_of_line rfl rfl
theorem ScriptForm.iSend (ep : Nat) (dst : Port) (payload : List Byte) : ScriptForm.Statement (.iSend ep dst payload) :=
  scriptForm_of_line rfl rfl
theorem ScriptForm.iClose (ep : Nat) (dst : Port) : ScriptForm.Statement (.iClose ep dst) :=
  scriptForm_of_line rfl rfl
theorem ScriptForm.iExpire (ep : Nat) : ScriptForm.Statement (.iExpire ep) :=
  scriptForm_of_line rfl rfl
theorem ScriptForm.iRecv (ep : Nat) (w : Wire) : ScriptForm.Statement (.iRecv ep w) :=
  scriptForm_of_line rfl rfl
theorem ScriptForm.rRecv (ep : Nat) (w : Wire) : ScriptForm.Statement (.rRecv ep w) :=
  scriptForm_of_line rfl rfl
theorem ScriptForm.nRegi (port : Port) (inst : Nat) : ScriptForm.Statement (.nRegi port inst) :=
  scriptForm_of_line rfl rfl
theorem ScriptForm.nRegr (port : Port) (inst : Nat) : ScriptForm.Statement (.nRegr port inst) :=
  scriptForm_of_line rfl rfl
theorem ScriptForm.nXmit (w : Wire) (src dst : Port) : ScriptForm.Statement (.nXmit w src dst) :=
  scriptForm_of_line rfl rfl
theorem ScriptForm.nDeliver : ScriptForm.Statement (.nDeliver) :=
  scriptForm_of_line rfl rfl
theorem ScriptForm.nDrain : ScriptForm.Statement (.nDrain) :=
  scriptForm_of_line rfl rfl
theorem ScriptForm.reserved0 : ScriptForm.Statement (.reserved0) :=
  scriptForm_of_line rfl rfl
theorem ScriptForm.reserved3 : ScriptForm.Statement (.reserved3) :=
  scriptForm_of_line rfl rfl
theorem ScriptForm.reservedF : ScriptForm.Statement (.reservedF) :=
  scriptForm_of_line rfl rfl
theorem ScriptForm.seg (hdr : BitVec 160) (tail : Wire) : ScriptForm.Statement (.seg hdr tail) :=
  scriptForm_of_none rfl
theorem ScriptForm.segBuilt (src dst : Port) (sq ak : Word32) (f : FlagSet) (wi ck up : BitVec 16) (payload : List Byte) : ScriptForm.Statement (.segBuilt src dst sq ak f wi ck up payload) :=
  scriptForm_of_none rfl
theorem ScriptForm.iC0 (ep : Nat) (g : Segment) : ScriptForm.Statement (.iC0 ep g) :=
  scriptForm_of_none rfl
theorem ScriptForm.iC1 (ep : Nat) (g : Segment) : ScriptForm.Statement (.iC1 ep g) :=
  scriptForm_of_none rfl
theorem ScriptForm.iC2 (ep : Nat) (g : Segment) : ScriptForm.Statement (.iC2 ep g) :=
  scriptForm_of_none rfl
theorem ScriptForm.iC3 (ep : Nat) (g : Segment) : ScriptForm.Statement (.iC3 ep g) :=
  scriptForm_of_none rfl
theorem ScriptForm.iC4 (ep : Nat) (g : Segment) : ScriptForm.Statement (.iC4 ep g) :=
  scriptForm_of_none rfl
theorem ScriptForm.iC5 (ep : Nat) (g : Segment) : ScriptForm.Statement (.iC5 ep g) :=
  scriptForm_of_none rfl
theorem ScriptForm.iC6 (ep : Nat) (g : Segment) : ScriptForm.Statement (.iC6 ep g) :=
  scriptForm_of_none rfl
theorem ScriptForm.iC7 (ep : Nat) (g : Segment) : ScriptForm.Statement (.iC7 ep g) :=
  scriptForm_of_none rfl
theorem ScriptForm.rC1 (ep : Nat) (g : Segment) : ScriptForm.Statement (.rC1 ep g) :=
  scriptForm_of_none rfl
theorem ScriptForm.rC1a (ep : Nat) (g : Segment) : ScriptForm.Statement (.rC1a ep g) :=
  scriptForm_of_none rfl
theorem ScriptForm.rC2 (ep : Nat) (g : Segment) : ScriptForm.Statement (.rC2 ep g) :=
  scriptForm_of_none rfl
theorem ScriptForm.rC3 (ep : Nat) (g : Segment) : ScriptForm.Statement (.rC3 ep g) :=
  scriptForm_of_none rfl
theorem ScriptForm.rC4 (ep : Nat) (g : Segment) : ScriptForm.Statement (.rC4 ep g) :=
  scriptForm_of_none rfl
theorem ScriptForm.rC6 (ep : Nat) (g : Segment) : ScriptForm.Statement (.rC6 ep g) :=
  scriptForm_of_none rfl
theorem ScriptForm.rC5 (ep : Nat) (g : Segment) : ScriptForm.Statement (.rC5 ep g) :=
  scriptForm_of_none rfl
theorem ScriptForm.rC7 (ep : Nat) (g : Segment) : ScriptForm.Statement (.rC7 ep g) :=
  scriptForm_of_none rfl

end Sys2Proof.Laws
end

