-- ==== Sys2Proof/Laws/Wire.lean ====
section
/-! SUPPORT. What reading and writing a field of a wire can do (00_scope.md R11, 20_memory.md R72): lengths, and that a
field reads back from where it was written. -/

namespace Sys2Proof.Laws

open Sys2Proof Sys2Proof.Machine

@[simp] theorem bitsN_length {n : Nat} (v : BitVec n) : (bitsN v).length = n := by
  simp [bitsN]

@[simp] theorem wireOfBytes_nil : wireOfBytes [] = [] := rfl

@[simp] theorem wireOfBytes_cons (b : Byte) (bs : List Byte) : wireOfBytes (b :: bs) = bitsN b ++ wireOfBytes bs := rfl

@[simp] theorem wireOfBytes_length (bs : List Byte) : (wireOfBytes bs).length = 8 * bs.length := by
  induction bs with
  | nil => rfl
  | cons b bs ih => simp [ih]; omega

@[simp] theorem encodeHeader_length (g : Segment) : (encodeHeader g).length = 160 := by
  simp [encodeHeader]

theorem natOfBits_append_singleton (w : Wire) (b : Bool) : natOfBits (w ++ [b]) = 2 * natOfBits w + b.toNat := by
  simp [natOfBits]

/-- The first `k` bits of a value's wire are its top `k` bits. -/
theorem natOfBits_msb {n : Nat} (v : BitVec n) (k : Nat) (h : k ≤ n) :
    natOfBits ((List.range k).map fun i => v.getMsbD i) = v.toNat / 2 ^ (n - k) := by
  induction k with
  | zero => simp [natOfBits, Nat.div_eq_of_lt v.isLt]
  | succ k ih =>
    rw [List.range_succ, List.map_append, List.map_singleton, natOfBits_append_singleton, ih (by omega)]
    have hk : n - k = (n - (k + 1)) + 1 := by omega
    have hb : (v.getMsbD k).toNat = v.toNat / 2 ^ (n - (k + 1)) % 2 := by
      rw [BitVec.getMsbD, decide_eq_true (show k < n by omega), Bool.true_and, BitVec.getLsbD,
        show n - 1 - k = n - (k + 1) by omega, Nat.toNat_testBit]
    rw [hb, hk, Nat.pow_succ, ← Nat.div_div_eq_div_mul]
    omega

/-- A value reads back from its own wire (R11: `MemRead` after `MemWrite`). -/
@[simp] theorem natOfBits_bitsN {n : Nat} (v : BitVec n) : natOfBits (bitsN v) = v.toNat := by
  have h := natOfBits_msb v n le_rfl
  simpa [bitsN] using h

/-- A field reads back from the position it was written at (R11, R72). -/
theorem memRead_field (pre post : Wire) {n : Nat} (v : BitVec n) (p : Nat) (hp : pre.length = p) :
    memRead (pre ++ (bitsN v ++ post)) p n = v := by
  subst hp
  simp [memRead]

/-- A single bit of a wire, read at its position. -/
theorem bitAt_append_right (pre post : Wire) (p : Nat) (h : pre.length ≤ p) :
    bitAt (pre ++ post) p = bitAt post (p - pre.length) := by
  simp [bitAt, List.getD_eq_getElem?_getD, List.getElem?_append_right h]

/-- A bit inside a field. -/
theorem bitAt_bitsN {n : Nat} (v : BitVec n) (post : Wire) (k : Nat) (h : k < n) :
    bitAt (bitsN v ++ post) k = v.getMsbD k := by
  simp [bitAt, List.getD_eq_getElem?_getD, List.getElem?_append_left, bitsN, h]

/-- `MemRead` of a wire depends on nothing after the field. -/
theorem memRead_append_left (w post : Wire) (p n : Nat) (h : p + n ≤ w.length) :
    memRead (w ++ post) p n = memRead w p n := by
  simp only [memRead]
  rw [List.drop_append_of_le_length (by omega), List.take_append_of_le_length (by simp; omega)]

/-- The flags field and the flag set say the same (R103). -/
theorem flagsOfField_flags9 (f : FlagSet) : flagsOfField (flags9 f) = f := by
  rcases f with ⟨a, b, c, d, e, g⟩
  cases a <;> cases b <;> cases c <;> cases d <;> cases e <;> cases g <;> rfl

/-- ENCODE writes the padding as 0 (R141). -/
theorem flags9_padding (f : FlagSet) : flags9 f &&& 7 = 0 := by
  rcases f with ⟨a, b, c, d, e, g⟩
  cases a <;> cases b <;> cases c <;> cases d <;> cases e <;> cases g <;> rfl

/-- The bare-ACK test is the mask of row I-C6 (R186, R111). -/
theorem isBareAck_eq_mask (f : FlagSet) : isBareAck f = rowFlagsMatch .iC6 (flags9 f) := by
  rcases f with ⟨a, b, c, d, e, g⟩
  cases a <;> cases b <;> cases c <;> cases d <;> cases e <;> cases g <;> rfl

end Sys2Proof.Laws
end

