-- ==== Sys2Proof/Tests/Slice0.lean ====
section
/-! SUPPORT. The model's own tests. Expected results are those of spec/95_test_vectors.md, whose vector id stands in
each comment, or are written out from the encodings of spec/30_encoding.md. Last come the witnesses: for every
statement of Certificates/Slice0/Obligations.lean that has hypotheses, a state and operands that meet them. -/

namespace Sys2Proof.Tests

open Sys2Proof Sys2Proof.Machine

set_option Elab.async false

/-! ### Helpers -/

/-- An Initiator of the vectors (PORT 12345, ISS 1000) with the given registers. -/
def tI (c : ConnState) (sq ak : Word32) : Machine.Seq :=
  { role := .initiator, port := 12345, iss := 1000, state := c, sndSeq := sq, rcvAck := ak, finOwed := false }

/-- A Responder of the vectors (PORT 80, ISS 5000) with the given registers. -/
def tR (c : ConnState) (sq ak : Word32) (owed : Bool) : Machine.Seq :=
  { role := .responder, port := 80, iss := 5000, state := c, sndSeq := sq, rcvAck := ak, finOwed := owed }

/-- A machine with the given parameters and sequencers. -/
def tP (p : Params) (es : List Machine.Seq) : State := { State.resetWith p [] with seqs := es }

/-- A machine with default parameters and one sequencer. -/
def tS (e : Machine.Seq) : State := tP Params.default [e]

/-- A machine with one sequencer, about to take one request. -/
def tAsk (e : Machine.Seq) (r : Request) : State := { tS e with inbox := [r] }

/-- Statuses, sequencers and emitted records (bytes and destination) of a next state. -/
def seen : Host.Outcome State Fault Refusal → Option (List Status × List Machine.Seq × List (List Byte × Port))
  | .next t => some (t.resp.status.toList, t.seqs, t.resp.tx.map fun r => (bytesOfWire r.wire, r.dstPort))
  | _ => none

/-- Statuses and queue of a next state. -/
def seenQueue : Host.Outcome State Fault Refusal → Option (List Status × List DeliveryRecord)
  | .next t => some (t.resp.status.toList, t.q)
  | _ => none

/-- Statuses, wire and record of a next state. -/
def seenCodec : Host.Outcome State Fault Refusal → Option (List Status × Option (List Byte) × Option Segment)
  | .next t => some (t.resp.status.toList, t.resp.wire.map bytesOfWire, t.resp.record)
  | _ => none

/-- What a step is refused with. -/
def seenRefusal : Host.Outcome State Fault Refusal → Option Refusal
  | .refused r => some r
  | _ => none

def wSyn : List Byte := [0x30, 0x39, 0x00, 0x50, 0x00, 0x00, 0x03, 0xE8, 0x00, 0x00, 0x00, 0x00, 0x50, 0x10, 0x00,
      0x00, 0x00, 0x00, 0x00, 0x00]
def wSynAck : List Byte := [0x00, 0x50, 0x30, 0x39, 0x00, 0x00, 0x13, 0x88, 0x00, 0x00, 0x03, 0xE9, 0x50, 0x90,
      0x00, 0x00, 0x00, 0x00, 0x00, 0x00]
def wAck1 : List Byte := [0x30, 0x39, 0x00, 0x50, 0x00, 0x00, 0x03, 0xE8, 0x00, 0x00, 0x13, 0x89, 0x50, 0x80, 0x00,
      0x00, 0x00, 0x00, 0x00, 0x00]
def wData : List Byte := [0x30, 0x39, 0x00, 0x50, 0x00, 0x00, 0x03, 0xE8, 0x00, 0x00, 0x13, 0x89, 0x50, 0xC0, 0x00,
      0x00, 0x00, 0x00, 0x00, 0x00, 0x48, 0x65, 0x6C, 0x6C, 0x6F, 0x20, 0x53, 0x65, 0x72, 0x76, 0x65, 0x72, 0x21]
def wDAck : List Byte := [0x00, 0x50, 0x30, 0x39, 0x00, 0x00, 0x13, 0x88, 0x00, 0x00, 0x03, 0xF5, 0x50, 0x80, 0x00,
      0x00, 0x00, 0x00, 0x00, 0x00]
def wFinAck : List Byte := [0x30, 0x39, 0x00, 0x50, 0x00, 0x00, 0x03, 0xF5, 0x00, 0x00, 0x13, 0x89, 0x50, 0x88,
      0x00, 0x00, 0x00, 0x00, 0x00, 0x00]
def wFAck : List Byte := [0x00, 0x50, 0x30, 0x39, 0x00, 0x00, 0x13, 0x88, 0x00, 0x00, 0x03, 0xF6, 0x50, 0x80, 0x00,
      0x00, 0x00, 0x00, 0x00, 0x00]
def wRFin : List Byte := [0x00, 0x50, 0x30, 0x39, 0x00, 0x00, 0x13, 0x88, 0x00, 0x00, 0x03, 0xF6, 0x50, 0x08, 0x00,
      0x00, 0x00, 0x00, 0x00, 0x00]
def wLAck : List Byte := [0x30, 0x39, 0x00, 0x50, 0x00, 0x00, 0x03, 0xF5, 0x00, 0x00, 0x13, 0x89, 0x50, 0x80, 0x00,
      0x00, 0x00, 0x00, 0x00, 0x00]
def hello : List Byte := [0x48, 0x65, 0x6C, 0x6C, 0x6F, 0x20, 0x53, 0x65, 0x72, 0x76, 0x65, 0x72, 0x21]

/-- The segment record the decoder of the codec reads from bytes, for building operands. -/
def tG (bs : List Byte) : Segment := decodeFields (wireOfBytes bs)

/-! ### WellFormed: an ill-formed term for each check (R115 lengths and instances, R117, R111, R112) -/

theorem test_wellFormed_refuses_encode : WellFormed .standard (.encode { tG wSyn with payload :=
      (List.replicate 65536 0) }) = false := by
  simp only [WellFormed, List.length_replicate, decide_eq_false_iff_not]
  omega

theorem test_wellFormed_refuses_decode : WellFormed .standard (.decode (List.replicate 65536 false)) = false := by
  simp only [WellFormed, List.length_replicate, decide_eq_false_iff_not]
  omega

theorem test_wellFormed_refuses_iOpen : WellFormed .standard (.iOpen 1 80) = false := rfl

theorem test_wellFormed_refuses_iSend_instance : WellFormed .standard (.iSend 1 80 []) = false := rfl

theorem test_wellFormed_refuses_iSend_length : WellFormed .standard (.iSend 0 80 (List.replicate 65536 0)) =
      false := by
  simp only [WellFormed, List.length_replicate, decide_eq_false_iff_not, Bool.and_eq_false_iff]
  omega

theorem test_wellFormed_refuses_iClose : WellFormed .standard (.iClose 1 80) = false := rfl

theorem test_wellFormed_refuses_iExpire : WellFormed .standard (.iExpire 2) = false := rfl

theorem test_wellFormed_refuses_iRecv_instance : WellFormed .standard (.iRecv 1 []) = false := rfl

theorem test_wellFormed_refuses_iRecv_length : WellFormed .standard (.iRecv 0 (List.replicate 65536 false)) =
      false := by
  simp only [WellFormed, List.length_replicate, decide_eq_false_iff_not, Bool.and_eq_false_iff]
  omega

theorem test_wellFormed_refuses_rRecv_instance : WellFormed .standard (.rRecv 0 []) = false := rfl

theorem test_wellFormed_refuses_rRecv_length : WellFormed .standard (.rRecv 1 (List.replicate 65536 false)) =
      false := by
  simp only [WellFormed, List.length_replicate, decide_eq_false_iff_not, Bool.and_eq_false_iff]
  omega

theorem test_wellFormed_refuses_nRegi : WellFormed .standard (.nRegi 80 256) = false := rfl

theorem test_wellFormed_refuses_nRegr : WellFormed .standard (.nRegr 80 256) = false := rfl

theorem test_wellFormed_refuses_nXmit : WellFormed .standard (.nXmit (List.replicate 65536 false) 1 2) = false := by
  simp only [WellFormed, List.length_replicate, decide_eq_false_iff_not]
  omega

theorem test_wellFormed_refuses_seg : WellFormed .standard (.seg (hdrOfWire (wireOfBytes wSyn)) []) = false :=
      by decide +kernel

theorem test_wellFormed_refuses_rows : (WellFormed .standard (.iC1 0 { tG wSyn with flags := noFlags }) ||
    WellFormed .standard (.iC2 0 { tG wSyn with flags := noFlags }) ||
    WellFormed .standard (.iC3 0 { tG wSyn with flags := noFlags }) ||
    WellFormed .standard (.iC4 0 { tG wSyn with flags := noFlags }) ||
    WellFormed .standard (.iC5 0 { tG wSyn with flags := noFlags }) ||
    WellFormed .standard (.iC6 0 { tG wSyn with flags := noFlags }) ||
    WellFormed .standard (.rC1 0 { tG wSyn with flags := noFlags }) ||
    WellFormed .standard (.rC1a 0 { tG wSyn with flags := noFlags }) ||
    WellFormed .standard (.rC2 0 { tG wSyn with flags := noFlags }) ||
    WellFormed .standard (.rC3 0 { tG wSyn with flags := noFlags }) ||
    WellFormed .standard (.rC4 0 { tG wSyn with flags := noFlags }) ||
    WellFormed .standard (.rC6 0 { tG wSyn with flags := noFlags })) = false := by decide +kernel

/-- The rows without a flag condition accept every flag set (R111, R112). -/
theorem test_wellFormed_anyFlags : (WellFormed .standard (.iC0 0 (tG wSyn)) && WellFormed .standard (.iC7 0 (tG wSyn)) &&
    WellFormed .standard (.rC5 1 (tG wSyn)) && WellFormed .standard (.rC7 1 (tG wSyn))) = true := by decide +kernel

/-! ### Decoding: a word written out from the spec's encoding for every constructor -/

/-- R115. -/
theorem test_decode_reserved0 : decodeLine .standard [0x00] = .ok (.reserved0, []) := by decide +kernel

/-- R115. -/
theorem test_decode_reserved3 : decodeLine .standard [0x03] = .ok (.reserved3, []) := by decide +kernel

/-- R115. -/
theorem test_decode_reservedF : decodeLine .standard [0x0F, 0x0E] = .ok (.reservedF, [0x0E]) := by decide +kernel

/-- R115 with the record of vector V10: N is 1, byte 12 holds data offset 0 and reserved 5. -/
theorem test_decode_encode : decodeLine .standard [0x01, 0x00, 0x01, 0x00, 0x50, 0x30, 0x39, 0x00, 0x00, 0x13,
      0x88, 0x00, 0x00, 0x03, 0xE9, 0x0A, 0x80, 0x00, 0x00, 0x00, 0x00, 0x00, 0x00, 0x41] = .ok (.encode
      { srcPort := 80, dstPort := 12345, seq := 5000, ack := 1001, dataOffset := 0, reserved := 5, flags := flagsAck,
        window := 0, checksum := 0, urgent := 0, payload := [0x41] }, []) := by decide +kernel

/-- R115: a wire of 5 bits, `10101`, padded on the right. -/
theorem test_decode_decode : decodeLine .standard [0x02, 0x00, 0x05, 0xA8] =
      .ok (.decode [true, false, true, false, true], []) := by decide +kernel

/-- P1 line 3. -/
theorem test_decode_iOpen : decodeLine .standard [0x04, 0x00, 0x50] = .ok (.iOpen 0 80, []) := by decide +kernel

/-- P4 line 2. -/
theorem test_decode_iSend : decodeLine .standard [0x05, 0x00, 0x50, 0x00, 0x01, 0x78] = .ok (.iSend 0 80 [0x78],
      []) := by decide +kernel

/-- P2 line 1. -/
theorem test_decode_iClose : decodeLine .standard [0x06, 0x00, 0x50] = .ok (.iClose 0 80, []) := by decide +kernel

/-- P2 line 5. -/
theorem test_decode_iExpire : decodeLine .standard [0x07] = .ok (.iExpire 0, []) := by decide +kernel

/-- R115. -/
theorem test_decode_iRecv : decodeLine .standard [0x08, 0x00, 0x03, 0x40] = .ok (.iRecv 0 [false, true, false],
      []) := by decide +kernel

/-- R115. -/
theorem test_decode_rRecv : decodeLine .standard [0x09, 0x00, 0x09, 0x80, 0x80] =
      .ok (.rRecv 1 [true, false, false, false, false, false, false, false, true], []) := by decide +kernel

/-- P1 line 1. -/
theorem test_decode_nRegi : decodeLine .standard [0x0A, 0x30, 0x39, 0x00] = .ok (.nRegi 12345 0, []) :=
      by decide +kernel

/-- P1 line 2. -/
theorem test_decode_nRegr : decodeLine .standard [0x0B, 0x00, 0x50, 0x01] = .ok (.nRegr 80 1, []) := by decide +kernel

/-- R115. -/
theorem test_decode_nXmit : decodeLine .standard [0x0C, 0x30, 0x39, 0x00, 0x50, 0x00, 0x03, 0xA0, 0x0D] =
      .ok (.nXmit [true, false, true] 12345 80, [0x0D]) := by decide +kernel

/-- P4 line 5. -/
theorem test_decode_nDeliver : decodeLine .standard [0x0D] = .ok (.nDeliver, []) := by decide +kernel

/-- P1 line 4. -/
theorem test_decode_nDrain : decodeLine .standard [0x0E] = .ok (.nDrain, []) := by decide +kernel

/-- R115: the high half of byte 0 is 0. -/
theorem test_decode_badByte : decodeLine .standard [0x10] =
    .error .notAnOperationByte := by decide +kernel

/-- R115: two payload bytes announced, one given. -/
theorem test_decode_truncated : decodeLine .standard [0x05, 0x00, 0x50, 0x00, 0x02, 0x78] =
    .error .truncatedLine := by decide +kernel

/-- R115: the bits behind a wire in its last byte are 0. -/
theorem test_decode_padding : decodeLine .standard [0x02, 0x00, 0x05, 0xA9] =
    .error .paddingNotZero := by decide +kernel

/-- R115: a record's padding is 000. -/
theorem test_decode_recordPadding : decodeLine .standard [0x01, 0x00, 0x00, 0x30, 0x39, 0x00, 0x50, 0x00, 0x00,
      0x03, 0xE8, 0x00, 0x00, 0x00, 0x00, 0x50, 0x11, 0x00, 0x00, 0x00, 0x00, 0x00, 0x00] =
    .error .paddingNotZero := by decide +kernel

/-- Vector X12: data offset 10, reserved 7, URG, padding set. -/
theorem test_decode_seg : decodeCodecWire (wireOfBytes [0x00, 0x50, 0x30, 0x39, 0x00, 0x00, 0x13, 0x88, 0x00, 0x00,
      0x03, 0xE9, 0xAF, 0x07, 0x00, 0x00, 0x00, 0x00, 0x00, 0x00]) =
    .seg 0x0050303900001388000003E9AF07000000000000 [] := by decide +kernel

/-- Vector V11. -/
theorem test_decode_segBuilt : decodeCodecWire (wireOfBytes [0x30, 0x39, 0x00, 0x50, 0x00, 0x00, 0x03, 0xE8, 0x00,
      0x00, 0x00, 0x00, 0x50, 0x10, 0x20, 0x00, 0xBE, 0xEF, 0x00, 0x01]) =
    .segBuilt 12345 80 1000 0 flagsSyn 0x2000 0xBEEF 1 [] := by decide +kernel

/-- Vector I1. -/
theorem test_decode_iC0 : decodeReceive [tI .closed 1000 0] 0 (wireOfBytes wSynAck) = .iC0 0 (tG wSynAck) :=
      by decide +kernel

/-- Vector I5. -/
theorem test_decode_iC1 : decodeReceive [tI .synSent 1000 0] 0 (wireOfBytes ([0x00, 0x50, 0x30, 0x39, 0x00, 0x00,
      0x13, 0x88, 0x00, 0x00, 0x03, 0xE9, 0x50, 0x98, 0x00, 0x00, 0x00, 0x00, 0x00, 0x00])) =
      .iC1 0 (tG ([0x00, 0x50, 0x30, 0x39, 0x00, 0x00, 0x13, 0x88, 0x00, 0x00, 0x03, 0xE9, 0x50, 0x98, 0x00, 0x00,
      0x00, 0x00, 0x00, 0x00])) := by decide +kernel

/-- Vector I8. -/
theorem test_decode_iC2 : decodeReceive [tI .synAckReceived 1000 0] 0 (wireOfBytes ([0x00, 0x50, 0x30, 0x39, 0x00,
      0x00, 0x13, 0x88, 0x00, 0x00, 0x03, 0xE9, 0x50, 0x80, 0x00, 0x00, 0x00, 0x00, 0x00, 0x00])) =
      .iC2 0 (tG ([0x00, 0x50, 0x30, 0x39, 0x00, 0x00, 0x13, 0x88, 0x00, 0x00, 0x03, 0xE9, 0x50, 0x80, 0x00, 0x00,
      0x00, 0x00, 0x00, 0x00])) := by decide +kernel

/-- Vector I14. -/
theorem test_decode_iC3 : decodeReceive [tI .established 1000 5001] 0 (wireOfBytes ([0x00, 0x50, 0x30, 0x39, 0x00,
      0x00, 0x13, 0x88, 0x00, 0x00, 0x03, 0xE9, 0x50, 0x48, 0x00, 0x00, 0x00, 0x00, 0x00, 0x00])) =
      .iC3 0 (tG ([0x00, 0x50, 0x30, 0x39, 0x00, 0x00, 0x13, 0x88, 0x00, 0x00, 0x03, 0xE9, 0x50, 0x48, 0x00, 0x00,
      0x00, 0x00, 0x00, 0x00])) := by decide +kernel

/-- Vector I18. -/
theorem test_decode_iC4 : decodeReceive [tI .finWait1 1013 5001] 0 (wireOfBytes ([0x00, 0x50, 0x30, 0x39, 0x00,
      0x00, 0x13, 0x88, 0x00, 0x00, 0x03, 0xF6, 0x50, 0x88, 0x00, 0x00, 0x00, 0x00, 0x00, 0x00])) =
      .iC4 0 (tG ([0x00, 0x50, 0x30, 0x39, 0x00, 0x00, 0x13, 0x88, 0x00, 0x00, 0x03, 0xF6, 0x50, 0x88, 0x00, 0x00,
      0x00, 0x00, 0x00, 0x00])) := by decide +kernel

/-- Vector I19. -/
theorem test_decode_iC5 : decodeReceive [tI .finWait1 1013 5001] 0 (wireOfBytes wRFin) = .iC5 0 (tG wRFin) :=
      by decide +kernel

/-- Vector I27. -/
theorem test_decode_iC6 : decodeReceive [tI .synSent 1000 0] 0 (wireOfBytes ([0x00, 0x50, 0x30, 0x39, 0x00, 0x00,
      0x13, 0x88, 0x00, 0x00, 0x03, 0xE9, 0x50, 0x80, 0x00, 0x00, 0x00, 0x00, 0x00, 0x00])) =
      .iC6 0 (tG ([0x00, 0x50, 0x30, 0x39, 0x00, 0x00, 0x13, 0x88, 0x00, 0x00, 0x03, 0xE9, 0x50, 0x80, 0x00, 0x00,
      0x00, 0x00, 0x00, 0x00])) := by decide +kernel

/-- Vector I30. -/
theorem test_decode_iC7 : decodeReceive [tI .established 1000 5001] 0 (wireOfBytes ([0x00, 0x50, 0x30, 0x39, 0x00,
      0x00, 0x13, 0x88, 0x00, 0x00, 0x03, 0xE9, 0x51, 0x80, 0x00, 0x00, 0x00, 0x00, 0x00, 0x00])) =
      .iC7 0 (tG ([0x00, 0x50, 0x30, 0x39, 0x00, 0x00, 0x13, 0x88, 0x00, 0x00, 0x03, 0xE9, 0x51, 0x80, 0x00, 0x00,
      0x00, 0x00, 0x00, 0x00])) := by decide +kernel

/-- Vector S4. -/
theorem test_decode_rC1 : decodeReceive [tR .listening 5000 0 false] 0 (wireOfBytes ([0x30, 0x39, 0x00, 0x50, 0x00,
      0x00, 0x03, 0xE8, 0x00, 0x00, 0x00, 0x00, 0x50, 0x90, 0x00, 0x00, 0x00, 0x00, 0x00, 0x00])) =
      .rC1 0 (tG ([0x30, 0x39, 0x00, 0x50, 0x00, 0x00, 0x03, 0xE8, 0x00, 0x00, 0x00, 0x00, 0x50, 0x90, 0x00, 0x00,
      0x00, 0x00, 0x00, 0x00])) := by decide +kernel

/-- Vector S7. -/
theorem test_decode_rC1a : decodeReceive [tR .synReceived 5000 1001 false] 0 (wireOfBytes ([0x30, 0x39, 0x00, 0x50,
      0x00, 0x00, 0x03, 0xE8, 0x00, 0x00, 0x13, 0x89, 0x50, 0xC0, 0x00, 0x00, 0x00, 0x00, 0x00, 0x00])) =
      .rC1a 0 (tG ([0x30, 0x39, 0x00, 0x50, 0x00, 0x00, 0x03, 0xE8, 0x00, 0x00, 0x13, 0x89, 0x50, 0xC0, 0x00, 0x00,
      0x00, 0x00, 0x00, 0x00])) := by decide +kernel

/-- Vector S12. -/
theorem test_decode_rC2 : decodeReceive [tR .established 5000 1001 false] 0 (wireOfBytes ([0x30, 0x39, 0x00, 0x50,
      0x00, 0x00, 0x03, 0xE8, 0x00, 0x00, 0x13, 0x89, 0x50, 0x48, 0x00, 0x00, 0x00, 0x00, 0x00, 0x00])) =
      .rC2 0 (tG ([0x30, 0x39, 0x00, 0x50, 0x00, 0x00, 0x03, 0xE8, 0x00, 0x00, 0x13, 0x89, 0x50, 0x48, 0x00, 0x00,
      0x00, 0x00, 0x00, 0x00])) := by decide +kernel

/-- Vector S14. -/
theorem test_decode_rC4 : decodeReceive [tR .dataReceived 5000 1013 false] 0 (wireOfBytes wFinAck) =
      .rC4 0 (tG wFinAck) := by decide +kernel

/-- Vector S24. -/
theorem test_decode_rC6 : decodeReceive [tR .lastAck 5001 1014 false] 0 (wireOfBytes ([0x30, 0x39, 0x00, 0x50,
      0x00, 0x00, 0x03, 0xF5, 0x00, 0x00, 0x13, 0x89, 0x50, 0x88, 0x00, 0x00, 0x00, 0x00, 0x00, 0x00])) =
      .rC6 0 (tG ([0x30, 0x39, 0x00, 0x50, 0x00, 0x00, 0x03, 0xF5, 0x00, 0x00, 0x13, 0x89, 0x50, 0x88, 0x00, 0x00,
      0x00, 0x00, 0x00, 0x00])) := by decide +kernel

/-- Vector S18. -/
theorem test_decode_rC5 : decodeReceive [tR .closeWait 5000 1014 true] 0 (wireOfBytes wLAck) = .rC5 0 (tG wLAck) :=
      by decide +kernel

/-- Vector S30. -/
theorem test_decode_rC7 : decodeReceive [tR .established 5000 1001 false] 0 (wireOfBytes ([0x30, 0x39, 0x00, 0x50,
      0x00, 0x00, 0x03, 0xE8, 0x00, 0x00, 0x13, 0x89, 0x50, 0x20, 0x00, 0x00, 0x00, 0x00, 0x00, 0x00])) =
      .rC7 0 (tG ([0x30, 0x39, 0x00, 0x50, 0x00, 0x00, 0x03, 0xE8, 0x00, 0x00, 0x13, 0x89, 0x50, 0x20, 0x00, 0x00,
      0x00, 0x00, 0x00, 0x00])) := by decide +kernel

/-- R215: with every state condition there is, the pattern of R-C3 (any flags) decodes to another case. -/
theorem test_decode_rC3_never :
    decodeReceive [tR .established 5000 1001 false] 0 (wireOfBytes wSyn) = .rC7 0 (tG wSyn) := by decide +kernel

/-- Words of spec/opcode_table.json: I.CLOSE, SEG.BUILT, I-C1, R-C1. -/
theorem test_decode_tableWords :
    decodeTableWord 8 6 = some (.iClose 0 0) ∧
    decodeTableWord 160 0x0000000000000000000000005000000000000000 = some (.segBuilt 0 0 0 0 noFlags 0 0 0 []) ∧
    decodeTableWord 16 0x090 = some (.iC1 0 { mkSeg 0 0 0 0 flagsSynAck 0 0 0 [] with dataOffset := 0 }) ∧
    decodeTableWord 16 0x010 = some (.rC1 1 { mkSeg 0 0 0 0 flagsSyn 0 0 0 [] with dataOffset := 0 }) := by
  decide +kernel

/-! ### One step each: the vectors -/

/-- Vector K1. -/
theorem test_step_iOpen : seen (step (tAsk (tI .closed 1000 0) (.command 0 4 80 []))) =
    some ([.ok], [tI .synSent 1000 0], [(wSyn, 80)]) := by decide +kernel

/-- Vector K4. -/
theorem test_step_iOpen_order : seen (step (tAsk (tI .synSent 1000 0) (.command 0 4 0 []))) =
    some ([.invalidState], [tI .synSent 1000 0], []) := by decide +kernel

/-- Vector K9. -/
theorem test_step_iSend : seen (step (tAsk (tI .established 0xFFFFFFFA 5001) (.command 0 5 80 hello))) =
    some ([.ok], [tI .established 7 5001],
      [([0x30, 0x39, 0x00, 0x50, 0xFF, 0xFF, 0xFF, 0xFA, 0x00, 0x00, 0x13, 0x89, 0x50, 0xC0, 0x00, 0x00, 0x00,
      0x00, 0x00, 0x00, 0x48, 0x65, 0x6C, 0x6C, 0x6F, 0x20, 0x53, 0x65, 0x72, 0x76, 0x65, 0x72, 0x21], 80)]) :=
      by decide +kernel

/-- Vector K6. -/
theorem test_step_iSend_order : seen (step (tAsk (tI .closed 1000 0) (.command 0 5 0 [0x78]))) =
    some ([.notEstablished], [tI .closed 1000 0], []) := by decide +kernel

/-- Vector K12. -/
theorem test_step_iClose : seen (step (tAsk (tI .established 1013 5001) (.command 0 6 80 []))) =
    some ([.ok], [tI .finWait1 1013 5001], [(wFinAck, 80)]) := by decide +kernel

/-- Vector K16. -/
theorem test_step_iClose_unaddressed : seen (step (tAsk (tI .established 1013 5001) (.command 0 6 0 []))) =
    some ([.unaddressedSegment], [tI .established 1013 5001], []) := by decide +kernel

/-- Vector K17. -/
theorem test_step_iExpire : seen (step (tAsk (tI .timeWait 1013 5001) (.command 0 7 0 []))) =
    some ([.ok], [tI .closed 1013 5001], []) := by decide +kernel

/-- Vector K18. -/
theorem test_step_iExpire_early : seen (step (tAsk (tI .finWait2 1013 5001) (.command 0 7 0 []))) =
    some ([.invalidState], [tI .finWait2 1013 5001], []) := by decide +kernel

/-- Vector I31. -/
theorem test_step_iRecv_short : seen (step (tAsk (tI .synSent 1000 0) (.receive 0 ((wireOfBytes wSynAck).take 159)))) =
    some ([.malformedSegment], [tI .synSent 1000 0], []) := by decide +kernel

/-- Vector I32. -/
theorem test_step_iRecv_script : seen (step (tAsk (tI .synSent 1000 0) (.script .standard (0x08 :: 0x00 :: 0xA0 ::
      [0x00, 0x50, 0x03, 0xE7, 0x00, 0x00, 0x13, 0x88, 0x00, 0x00, 0x03, 0xE9, 0x50, 0x90, 0x00, 0x00, 0x00, 0x00,
      0x00, 0x00])))) =
    some ([.ok], [tI .established 1000 5001], [(wAck1, 80)]) := by decide +kernel

/-- Vector S31. -/
theorem test_step_rRecv_short : seen (step (tAsk (tR .listening 5000 0 false) (.receive 0 ((wireOfBytes wSyn).take 152)))) =
    some ([.malformedSegment], [tR .listening 5000 0 false], []) := by decide +kernel

/-- Vector I1. -/
theorem test_step_iC0 : seen (step (tAsk (tI .closed 1000 0) (.receive 0 (wireOfBytes wSynAck)))) =
    some ([.ok], [tI .closed 1000 0], []) := by decide +kernel

/-- Vector I3. -/
theorem test_step_iC1 : seen (step (tAsk (tI .synSent 1000 0) (.receive 0 (wireOfBytes wSynAck)))) =
    some ([.ok], [tI .established 1000 5001], [(wAck1, 80)]) := by decide +kernel

/-- Vector I6. -/
theorem test_step_iC1_unaddressed : seen (step (tAsk (tI .synSent 1000 0) (.receive 0 (wireOfBytes [0x00, 0x00,
      0x30, 0x39, 0x00, 0x00, 0x13, 0x88, 0x00, 0x00, 0x03, 0xE9, 0x50, 0x90, 0x00, 0x00, 0x00, 0x00, 0x00,
      0x00])))) =
    some ([.unaddressedSegment], [tI .synSent 1000 0], []) := by decide +kernel

/-- Vector I8. -/
theorem test_step_iC2 : seen (step (tAsk (tI .synAckReceived 1000 0) (.receive 0 (wireOfBytes ([0x00, 0x50, 0x30,
      0x39, 0x00, 0x00, 0x13, 0x88, 0x00, 0x00, 0x03, 0xE9, 0x50, 0x80, 0x00, 0x00, 0x00, 0x00, 0x00, 0x00]))))) =
    some ([.ok], [tI .established 1000 0], []) := by decide +kernel

/-- Vector I10. -/
theorem test_step_iC3 : seen (step (tAsk (tI .established 1000 5001) (.receive 0 (wireOfBytes [0x00, 0x50, 0x30,
      0x39, 0x00, 0x00, 0x13, 0x88, 0x00, 0x00, 0x03, 0xE9, 0x50, 0xC0, 0x00, 0x00, 0x00, 0x00, 0x00, 0x00, 0x4F,
      0x4B])))) =
    some ([.ok], [tI .dataReceived 1000 5002], []) := by decide +kernel

/-- Vector I11. -/
theorem test_step_iC3_autoack : seen (step { tP { Params.default with iPshAutoack :=
      true } [tI .established 1000 5001] with inbox :=
      [.receive 0 (wireOfBytes [0x00, 0x50, 0x30, 0x39, 0x00, 0x00, 0x13, 0x88, 0x00, 0x00, 0x03, 0xE9, 0x50, 0xC0,
      0x00, 0x00, 0x00, 0x00, 0x00, 0x00, 0x4F, 0x4B])] }) =
    some ([.ok], [tI .dataReceived 1000 5002],
      [([0x30, 0x39, 0x00, 0x50, 0x00, 0x00, 0x03, 0xE8, 0x00, 0x00, 0x13, 0x8A, 0x50, 0x80, 0x00, 0x00, 0x00,
      0x00, 0x00, 0x00], 80)]) := by decide +kernel

/-- Vector I18. -/
theorem test_step_iC4 : seen (step (tAsk (tI .finWait1 1013 5001) (.receive 0 (wireOfBytes ([0x00, 0x50, 0x30,
      0x39, 0x00, 0x00, 0x13, 0x88, 0x00, 0x00, 0x03, 0xF6, 0x50, 0x88, 0x00, 0x00, 0x00, 0x00, 0x00, 0x00]))))) =
    some ([.ok], [tI .finWait2 1013 5001], []) := by decide +kernel

/-- Vector I19. -/
theorem test_step_iC5 : seen (step (tAsk (tI .finWait1 1013 5001) (.receive 0 (wireOfBytes wRFin)))) =
    some ([.ok], [tI .timeWait 1013 5001], [(wLAck, 80)]) := by decide +kernel

/-- Vector I22. -/
theorem test_step_iC5_anyState : seen (step (tAsk (tI .synSent 1000 0) (.receive 0 (wireOfBytes [0x00, 0x50, 0x30,
      0x39, 0x00, 0x00, 0x13, 0x88, 0x00, 0x00, 0x00, 0x00, 0x50, 0x08, 0x00, 0x00, 0x00, 0x00, 0x00, 0x00])))) =
    some ([.ok], [tI .timeWait 1000 5001], [(wAck1, 80)]) := by decide +kernel

/-- Vector I26. -/
theorem test_step_iC6 : seen (step (tAsk (tI .established 1000 5001) (.receive 0 (wireOfBytes wDAck)))) =
    some ([.ok], [tI .established 1000 5001], []) := by decide +kernel

/-- Vector I28. -/
theorem test_step_iC7 : seen (step (tAsk (tI .established 1000 5001) (.receive 0 (wireOfBytes ([0x00, 0x50, 0x30,
      0x39, 0x00, 0x00, 0x13, 0x88, 0x00, 0x00, 0x03, 0xE9, 0x50, 0xA0, 0x00, 0x00, 0x00, 0x00, 0x00, 0x00]))))) =
    some ([.ok], [tI .established 1000 5001], []) := by decide +kernel

/-- Vector S1. -/
theorem test_step_rC1 : seen (step (tAsk (tR .listening 5000 0 false) (.receive 0 (wireOfBytes wSyn)))) =
    some ([.ok], [tR .synReceived 5000 1001 false], [(wSynAck, 12345)]) := by decide +kernel

/-- Vector S7. -/
theorem test_step_rC1a : seen (step (tAsk (tR .synReceived 5000 1001 false) (.receive 0 (wireOfBytes ([0x30, 0x39,
      0x00, 0x50, 0x00, 0x00, 0x03, 0xE8, 0x00, 0x00, 0x13, 0x89, 0x50, 0xC0, 0x00, 0x00, 0x00, 0x00, 0x00,
      0x00]))))) =
    some ([.ok], [tR .established 5000 1001 false], []) := by decide +kernel

/-- Vector S11. -/
theorem test_step_rC2 : seen (step (tAsk (tR .established 5000 1001 false) (.receive 0 (wireOfBytes [0x30, 0x39,
      0x00, 0x50, 0xFF, 0xFF, 0xFF, 0xFA, 0x00, 0x00, 0x13, 0x89, 0x50, 0xC0, 0x00, 0x00, 0x00, 0x00, 0x00, 0x00,
      0x48, 0x65, 0x6C, 0x6C, 0x6F, 0x20, 0x53, 0x65, 0x72, 0x76, 0x65, 0x72, 0x21])))) =
    some ([.ok], [tR .dataReceived 5000 7 false],
      [([0x00, 0x50, 0x30, 0x39, 0x00, 0x00, 0x13, 0x88, 0x00, 0x00, 0x00, 0x07, 0x50, 0x80, 0x00, 0x00, 0x00,
      0x00, 0x00, 0x00], 12345)]) := by decide +kernel

/-- Vector S14. -/
theorem test_step_rC4_lazy : seen (step (tAsk (tR .dataReceived 5000 1013 false) (.receive 0 (wireOfBytes wFinAck)))) =
    some ([.ok], [tR .closeWait 5000 1014 true], [(wFAck, 12345)]) := by decide +kernel

/-- Vector S15. -/
theorem test_step_rC4_eager : seen (step { tP { Params.default with finPolicy :=
      .eager } [tR .dataReceived 5000 1013 false] with inbox := [.receive 0 (wireOfBytes wFinAck)] }) =
    some ([.ok], [tR .lastAck 5001 1014 false], [(wFAck, 12345), (wRFin, 12345)]) := by decide +kernel

/-- Vector S22. -/
theorem test_step_rC6 : seen (step (tAsk (tR .lastAck 5001 1014 false) (.receive 0 (wireOfBytes wLAck)))) =
    some ([.ok], [tR .closed 5001 1014 false], []) := by decide +kernel

/-- Vector S19. -/
theorem test_step_rC5 : seen (step (tAsk (tR .closeWait 5000 1014 true) (.receive 0 (wireOfBytes [0x11, 0x5C, 0x00,
      0x50, 0x00, 0x00, 0x00, 0x09, 0x00, 0x00, 0x00, 0x09, 0x50, 0x08, 0x00, 0x00, 0x00, 0x00, 0x00, 0x00])))) =
    some ([.ok], [tR .lastAck 5001 1014 false],
      [([0x00, 0x50, 0x11, 0x5C, 0x00, 0x00, 0x13, 0x88, 0x00, 0x00, 0x03, 0xF6, 0x50, 0x08, 0x00, 0x00, 0x00,
      0x00, 0x00, 0x00], 4444)]) := by decide +kernel

/-- Vector S23. -/
theorem test_step_rC7 : seen (step (tAsk (tR .lastAck 5001 1014 false) (.receive 0 (wireOfBytes [0x30, 0x39, 0x00,
      0x50, 0x00, 0x00, 0x03, 0xF5, 0x00, 0x00, 0x13, 0x88, 0x50, 0x80, 0x00, 0x00, 0x00, 0x00, 0x00, 0x00])))) =
    some ([.ok], [tR .lastAck 5001 1014 false], []) := by decide +kernel

/-- Vector none; R110. -/
theorem test_step_reserved0 : seen (step (tAsk (tI .closed 1000 0) (.script .standard [0x00]))) =
    some ([.invalidState], [tI .closed 1000 0], []) := by decide +kernel

/-- Vector none; R110. -/
theorem test_step_reserved3 : seen (step (tAsk (tI .closed 1000 0) (.script .standard [0x03]))) =
    some ([.invalidState], [tI .closed 1000 0], []) := by decide +kernel

/-- Vector none; R110. -/
theorem test_step_reservedF : seen (step (tAsk (tI .closed 1000 0) (.script .standard [0x0F]))) =
    some ([.invalidState], [tI .closed 1000 0], []) := by decide +kernel

/-- R215, log entry 8: as an instruction R-C3 leaves the segment to R-C4. -/
theorem test_step_rC3 : seen (exec (.rC3 0 (tG wFinAck)) (tS (tR .dataReceived 5000 1013 false))) =
    some ([.ok], [tR .closeWait 5000 1014 true], [(wFAck, 12345)]) := by decide +kernel

/-- Vector V2. -/
theorem test_step_encode_padding : seenCodec (step (tAsk (tI .closed 1000 0) (.record
      { srcPort := 65535, dstPort := 65535, seq := 0xFFFFFFFF, ack := 0xFFFFFFFF, dataOffset := 15, reserved :=
      7, flags := ⟨true, true, true, true, true, true⟩,
        window := 0xFFFF, checksum := 0xFFFF, urgent := 0xFFFF, payload := [] }))) =
    some ([.ok], some [0xFF, 0xFF, 0xFF, 0xFF, 0xFF, 0xFF, 0xFF, 0xFF, 0xFF, 0xFF, 0xFF, 0xFF, 0xFF, 0xF8, 0xFF,
      0xFF, 0xFF, 0xFF, 0xFF, 0xFF], none) := by decide +kernel

/-- Vector V3. -/
theorem test_step_encode : seenCodec (step (tAsk (tI .closed 1000 0) (.record
      { srcPort := 0x1234, dstPort := 0x5678, seq := 0x9ABCDEF0, ack := 0x0FEDCBA9, dataOffset := 5, reserved :=
      0, flags := ⟨true, false, false, true, false, false⟩,
        window := 0x1122, checksum := 0x3344, urgent := 0x5566, payload := [0x00, 0xFF, 0x80, 0x01] }))) =
    some ([.ok], some [0x12, 0x34, 0x56, 0x78, 0x9A, 0xBC, 0xDE, 0xF0, 0x0F, 0xED, 0xCB, 0xA9, 0x51, 0x20, 0x11,
      0x22, 0x33, 0x44, 0x55, 0x66, 0x00, 0xFF, 0x80, 0x01], none) := by decide +kernel

/-- Vector X1. -/
theorem test_step_decode_short : seenCodec (step (tAsk (tI .closed 1000 0) (.wire ((wireOfBytes wSyn).take 159)))) =
    some ([.malformedSegment], none, none) := by decide +kernel

/-- Vector X5. -/
theorem test_step_decode_script : seenCodec (step (tAsk (tI .closed 1000 0) (.script .standard (0x02 :: 0x00 ::
      0xA3 :: wSyn ++ [0xA0])))) =
    some ([.ok], none, some
      { srcPort := 12345, dstPort := 80, seq := 1000, ack := 0, dataOffset := 5, reserved := 0, flags := flagsSyn,
        window := 0, checksum := 0, urgent := 0, payload := [] }) := by decide +kernel

/-- Vector X8. -/
theorem test_step_seg : seenCodec (step (tAsk (tI .closed 1000 0) (.wire (wireOfBytes (wSyn ++ [0x41]) ++ [true,
      true, true, true, true])))) =
    some ([.ok], none, some
      { srcPort := 12345, dstPort := 80, seq := 1000, ack := 0, dataOffset := 5, reserved := 0, flags := flagsSyn,
        window := 0, checksum := 0, urgent := 0, payload := [0x41] }) := by decide +kernel

/-- Vector X13. -/
theorem test_step_segBuilt : seenCodec (step (tAsk (tI .closed 1000 0) (.wire (wireOfBytes wData)))) =
    some ([.ok], none, some
      { srcPort := 12345, dstPort := 80, seq := 1000, ack := 5001, dataOffset := 5, reserved := 0, flags :=
      flagsPshAck,
        window := 0, checksum := 0, urgent := 0, payload := hello }) := by decide +kernel

/-- Vector LK2. -/
theorem test_step_nRegi : ((step { tP Params.default [tI .closed 1000 0, tR .listening 5000 0 false,
      tI .closed 1 0] with
      itab := [(12345, 0)], inbox := [.registerInitiator 12345 2] }) matches
    .next { itab := [(12345, 2)], .. }) = true := by decide +kernel

/-- P1 line 2. -/
theorem test_step_nRegr : ((step { State.reset with inbox := [.script .standard [0x0B, 0x00, 0x50, 0x01]] }) matches
    .next { rtab := [(80, 1)], .. }) = true := by decide +kernel

/-- R241: an operand of the other role (log entry 11). -/
theorem test_step_nRegr_illTyped :
    seenRefusal (step { State.reset with inbox := [.registerResponder 80 0] }) = some .illTypedInstance := by
  decide +kernel

/-- Vector LK3. -/
theorem test_step_nXmit : seenQueue (step (tAsk (tI .closed 1000 0) (.transmit (wireOfBytes wSyn) 12345 80))) =
    some ([.ok], [{ wire := wireOfBytes wSyn, srcPort := 12345, dstPort := 80 }]) := by decide +kernel

/-- A machine with both sequencers registered and one record to port 80 queued. -/
def tLink (i r : Machine.Seq) (bs : List Byte) : State :=
  { tP Params.default [i, r] with
    itab := [(12345, 0)], rtab := [(80, 1)]
    q := [{ wire := wireOfBytes bs, srcPort := 12345, dstPort := 80 }] }

/-- Vector LK5. -/
theorem test_step_nDeliver :
    seenQueue (step { tLink (tI .synSent 1000 0) (tR .listening 5000 0 false) wSyn with inbox := [.deliverNext] }) =
      some ([.ok], [{ wire := wireOfBytes wSynAck, srcPort := 80, dstPort := 12345 }]) := by decide +kernel

/-- Vector LK7: the record of 159 bits is gone, the status is MalformedSegment. -/
theorem test_step_nDeliver_short :
    seenQueue (step { tLink (tI .synSent 1000 0) (tR .listening 5000 0 false) [] with
      q := [{ wire := (wireOfBytes wSyn).take 159, srcPort := 12345, dstPort := 80 }], inbox := [.deliverNext] }) =
      some ([.malformedSegment], []) := by decide +kernel

/-- P1 line 4, the first delivery: the Responder's SYN+ACK waits in the queue, so the drain stays under way. -/
theorem test_step_nDrain :
    (match step { tLink (tI .synSent 1000 0) (tR .listening 5000 0 false) wSyn with inbox := [.drainAll] } with
      | .next t => some (t.resp.status, t.draining, t.inbox)
      | _ => none) = some (some .ok, true, []) := by decide +kernel

/-- P1 line 4, the third delivery (the Initiator's ACK to the Responder) ends the drain; the waiting request stays. -/
theorem test_step_nDrain_last :
    (match step { tLink (tI .established 1000 5001) (tR .synReceived 5000 1001 false) wAck1 with
        draining := true, inbox := [.deliverNext] } with
      | .next t => some (t.seqs, t.draining, t.inbox)
      | _ => none) =
      some ([tI .established 1000 5001, tR .established 5000 1001 false], false, [.deliverNext]) := by decide +kernel

/-- R246: the record I.OPEN emitted is handed over by the next step. -/
theorem test_step_handover :
    seenQueue (step { tS (tI .synSent 1000 0) with
      handover := [{ wire := wireOfBytes wSyn, srcPort := 12345, dstPort := 80 }], inbox := [.drainAll] }) =
      some ([.ok], [{ wire := wireOfBytes wSyn, srcPort := 12345, dstPort := 80 }]) := by decide +kernel

/-! ### Witnesses: states and operands that meet the hypotheses of the statements -/

/-- An outcome that shows something is a next state. -/
theorem next_of_seen {x : Host.Outcome State Fault Refusal} (h : (seen x).isSome = true) : ∃ t, x = .next t := by
  cases x with
  | next t => exact ⟨t, rfl⟩
  | fault r => cases h
  | refused r => cases h

/-- A machine whose payloads have at most two bytes and whose queue has two places. -/
def tSmall (e : Machine.Seq) : State := tP { Params.default with payloadMax := some 2, queueDepth := some 2 } [e]

/-- A segment with the given flags, ports 80 to 12345. -/
def tF (f : FlagSet) : Segment := mkSeg 80 12345 5000 1001 f 0 0 0 []

/-- The same from port 0. -/
def tF0 (f : FlagSet) : Segment := mkSeg 0 12345 5000 1001 f 0 0 0 []

/-- A record as a sequencer emits it. -/
def tRec (bs : List Byte) (src dst : Port) : DeliveryRecord := { wire := wireOfBytes bs, srcPort := src, dstPort :=
      dst }

theorem witness_ReencodeClearsPaddingAndTail :
    160 ≤ (wireOfBytes wSyn).length ∧ 160 ≤ (wireOfBytes wSyn ++ [true]).length ∧
      clearedWire (wireOfBytes wSyn ++ [true]) = clearedWire (wireOfBytes wSyn) := by decide +kernel

theorem witness_CodecLengths :
    160 ≤ (wireOfBytes wSyn).length ∧ codecDecode (wireOfBytes wSyn) = some (tG wSyn) := by decide +kernel

theorem witness_FlagsFieldWeights :
    codecDecode (wireOfBytes wData) = some (tG wData) := by decide +kernel

theorem witness_EncodeAnswersItsWire_within :
    withinMax (tSmall (tI .closed 1000 0)) (mkSeg 1 2 3 4 noFlags 0 0 0 [0x41, 0x42]).payload.length := rfl

theorem witness_EncodeAnswersItsWire_over :
    ¬ withinMax (tSmall (tI .closed 1000 0)) (mkSeg 1 2 3 4 noFlags 0 0 0 [1, 2, 3]).payload.length := by
  unfold withinMax
  decide +kernel

theorem witness_DecodeAnswersRecordOrMalformed_short :
    ((wireOfBytes wSyn).take 159).length < 160 := by decide +kernel

theorem witness_DecodeAnswersRecordOrMalformed_within :
    160 ≤ (wireOfBytes wSyn).length ∧ withinMax (tSmall (tI .closed 1000 0)) (((wireOfBytes wSyn).length - 160) / 8) := ⟨by decide +kernel, by
  unfold withinMax
  decide +kernel⟩

theorem witness_DecodeAnswersRecordOrMalformed_over :
    160 ≤ (wireOfBytes (wSyn ++ [1, 2, 3])).length ∧
      ¬ withinMax (tSmall (tI .closed 1000 0)) (((wireOfBytes (wSyn ++ [1, 2, 3])).length - 160) / 8) :=
      ⟨by decide +kernel, by
  unfold withinMax
  decide +kernel⟩

theorem witness_SegAnswersHdrFields :
    withinMax (tSmall (tI .closed 1000 0)) ((wireOfBytes [0x41, 0x42] ++ [true]).length / 8) := rfl

theorem witness_BuiltSegmentAnswersItsRecord :
    withinMax (tSmall (tI .closed 1000 0)) ([0x41, 0x42] : List Byte).length := rfl

theorem witness_OpenCommand_opens :
    sequencerAt (tS (tI .closed 1000 5001)) 0 .initiator (tI .closed 1000 5001) ∧
      (tI .closed 1000 5001).state = .closed ∧ (1 : Port) ≠ 0 := ⟨⟨rfl, rfl, rfl⟩, by decide +kernel⟩

theorem witness_OpenCommand_wrongState :
    sequencerAt (tS (tI .timeWait 1000 5001)) 0 .initiator (tI .timeWait 1000 5001) ∧
      (tI .timeWait 1000 5001).state ≠ .closed := ⟨⟨rfl, rfl, rfl⟩, by decide +kernel⟩

theorem witness_OpenCommand_unaddressed :
    sequencerAt (tS (tI .closed 1000 5001)) 0 .initiator (tI .closed 1000 5001) ∧
      (tI .closed 1000 5001).state = .closed ∧ (0 : Port) = 0 := ⟨⟨rfl, rfl, rfl⟩, by decide +kernel⟩

theorem witness_SendCommand_established :
    sequencerAt (tS (tI .established 1000 5001)) 0 .initiator (tI .established 1000 5001) ∧
      withinMax (tS (tI .established 1000 5001)) hello.length ∧ (tI .established 1000 5001).state = .established ∧
      (1 : Port) ≠ 0 := ⟨⟨rfl, rfl, rfl⟩, ⟨rfl, by decide +kernel⟩⟩

theorem witness_SendCommand_dataReceived :
    sequencerAt (tS (tI .dataReceived 1000 5001)) 0 .initiator (tI .dataReceived 1000 5001) ∧
      withinMax (tS (tI .dataReceived 1000 5001)) hello.length ∧
      (tI .dataReceived 1000 5001).state = .dataReceived ∧
      (0xFFFF : Port) ≠ 0 := ⟨⟨rfl, rfl, rfl⟩, ⟨rfl, by decide +kernel⟩⟩

theorem witness_SendCommand_wrongState :
    sequencerAt (tS (tI .finWait1 1000 5001)) 0 .initiator (tI .finWait1 1000 5001) ∧
      withinMax (tS (tI .finWait1 1000 5001)) hello.length ∧ (tI .finWait1 1000 5001).state ≠ .established ∧
      (tI .finWait1 1000 5001).state ≠ .dataReceived := ⟨⟨rfl, rfl, rfl⟩, ⟨rfl, by decide +kernel⟩⟩

theorem witness_SendCommand_unaddressed :
    sequencerAt (tS (tI .established 1000 5001)) 0 .initiator (tI .established 1000 5001) ∧
      withinMax (tS (tI .established 1000 5001)) hello.length ∧ (tI .established 1000 5001).state = .established ∧
      (0 : Port) = 0 := ⟨⟨rfl, rfl, rfl⟩, ⟨rfl, by decide +kernel⟩⟩

theorem witness_CloseCommand_established :
    sequencerAt (tS (tI .established 1000 5001)) 0 .initiator (tI .established 1000 5001) ∧
      (tI .established 1000 5001).state = .established ∧ (1 : Port) ≠ 0 := ⟨⟨rfl, rfl, rfl⟩, by decide +kernel⟩

theorem witness_CloseCommand_dataReceived :
    sequencerAt (tS (tI .dataReceived 1000 5001)) 0 .initiator (tI .dataReceived 1000 5001) ∧
      (tI .dataReceived 1000 5001).state = .dataReceived ∧ (0xFFFF : Port) ≠ 0 := ⟨⟨rfl, rfl, rfl⟩, by decide +kernel⟩

theorem witness_CloseCommand_wrongState :
    sequencerAt (tS (tI .finWait1 1000 5001)) 0 .initiator (tI .finWait1 1000 5001) ∧
      (tI .finWait1 1000 5001).state ≠ .established ∧
      (tI .finWait1 1000 5001).state ≠ .dataReceived := ⟨⟨rfl, rfl, rfl⟩, by decide +kernel⟩

theorem witness_CloseCommand_unaddressed :
    sequencerAt (tS (tI .established 1000 5001)) 0 .initiator (tI .established 1000 5001) ∧
      (tI .established 1000 5001).state = .established ∧ (0 : Port) = 0 := ⟨⟨rfl, rfl, rfl⟩, by decide +kernel⟩

theorem witness_ExpireCommand_expires :
    sequencerAt (tS (tI .timeWait 1000 5001)) 0 .initiator (tI .timeWait 1000 5001) ∧
      (tI .timeWait 1000 5001).state = .timeWait := ⟨⟨rfl, rfl, rfl⟩, by decide +kernel⟩

theorem witness_ExpireCommand_wrongState :
    sequencerAt (tS (tI .finWait2 1000 5001)) 0 .initiator (tI .finWait2 1000 5001) ∧
      (tI .finWait2 1000 5001).state ≠ .timeWait := ⟨⟨rfl, rfl, rfl⟩, by decide +kernel⟩

theorem witness_OtherRoleAnswersInvalidState_responder :
    (tS (tR .listening 5000 1001 false)).seqs[0]? = some (tR .listening 5000 1001 false) ∧
      withinMax (tS (tR .listening 5000 1001 false)) hello.length ∧
      wireOverMax (tS (tR .listening 5000 1001 false)).par (wireOfBytes wSyn) = false ∧
      (tR .listening 5000 1001 false).role = .responder := ⟨rfl, rfl, by decide +kernel⟩

theorem witness_OtherRoleAnswersInvalidState_initiator :
    (tS (tI .closed 1000 5001)).seqs[0]? = some (tI .closed 1000 5001) ∧
      withinMax (tS (tI .closed 1000 5001)) hello.length ∧
      wireOverMax (tS (tI .closed 1000 5001)).par (wireOfBytes wSyn) = false ∧
      (tI .closed 1000 5001).role = .initiator := ⟨rfl, rfl, by decide +kernel⟩

theorem witness_SendCommand_bounded_sends :
    sequencerAt (tSmall (tI .established 1000 5001)) 0 .initiator (tI .established 1000 5001) ∧
      withinMax (tSmall (tI .established 1000 5001)) ([0x41, 0x42] : List Byte).length ∧
      (tI .established 1000 5001).state = .established ∧ (1 : Port) ≠ 0 := ⟨⟨rfl, rfl, rfl⟩, rfl, by decide +kernel⟩

theorem witness_SendCommand_bounded_unaddressed :
    sequencerAt (tSmall (tI .established 1000 5001)) 0 .initiator (tI .established 1000 5001) ∧
      withinMax (tSmall (tI .established 1000 5001)) ([0x41, 0x42] : List Byte).length ∧
      (tI .established 1000 5001).state = .established ∧ (0 : Port) = 0 := ⟨⟨rfl, rfl, rfl⟩, rfl, by decide +kernel⟩

theorem witness_SendCommand_over :
    ¬ withinMax (tSmall (tI .established 1000 5001)) ([1, 2, 3] : List Byte).length := by
  unfold withinMax
  decide +kernel

theorem witness_ReservedNumbersAnswerInvalidState :
    ∃ s : State, s.handover = [] ∧ s.draining = false ∧ s.inbox = .command 0 3 80 [] :: [.command 0 8 80 []] ∧
      (3 : BitVec 4) ≠ 4 ∧ (3 : BitVec 4) ≠ 5 ∧ (3 : BitVec 4) ≠ 6 ∧ (3 : BitVec 4) ≠ 7 ∧
      (8 : BitVec 4) ≠ 4 ∧ (8 : BitVec 4) ≠ 5 ∧ (8 : BitVec 4) ≠ 6 ∧ (8 : BitVec 4) ≠ 7 := 
  ⟨{ tS (tI .closed 1000 0) with inbox := [.command 0 3 80 [], .command 0 8 80 []] }, rfl, rfl, rfl,
      by decide +kernel⟩

theorem witness_InertCases_closed :
    sequencerAt (tS (tI .closed 1000 5001)) 0 .initiator (tI .closed 1000 5001) ∧
      withinMax (tS (tI .closed 1000 5001)) (tF flagsFin).payload.length ∧
      (tI .closed 1000 5001).state = .closed := ⟨⟨rfl, rfl, rfl⟩, rfl, by decide +kernel⟩

theorem witness_InertCases_initiator :
    sequencerAt (tS (tI .established 1000 5001)) 0 .initiator (tI .established 1000 5001) ∧
      withinMax (tS (tI .established 1000 5001)) (tF noFlags).payload.length := ⟨⟨rfl, rfl, rfl⟩, rfl⟩

theorem witness_InertCases_responder :
    sequencerAt (tS (tR .established 5000 1001 false)) 0 .responder (tR .established 5000 1001 false) ∧
      withinMax (tS (tR .established 5000 1001 false)) (tF noFlags).payload.length := ⟨⟨rfl, rfl, rfl⟩, rfl⟩

theorem witness_StateOnlyCases_iC2 :
    sequencerAt (tS (tI .synAckReceived 1000 5001)) 0 .initiator (tI .synAckReceived 1000 5001) ∧
      withinMax (tS (tI .synAckReceived 1000 5001)) (tF flagsAck).payload.length ∧
      (tF flagsAck).flags.ack = true ∧
      (tI .synAckReceived 1000 5001).state = .synAckReceived := ⟨⟨rfl, rfl, rfl⟩, rfl, by decide +kernel⟩

theorem witness_StateOnlyCases_iC4 :
    sequencerAt (tS (tI .finWait1 1000 5001)) 0 .initiator (tI .finWait1 1000 5001) ∧
      withinMax (tS (tI .finWait1 1000 5001)) (tF flagsAck).payload.length ∧
      (tF flagsAck).flags.ack = true ∧
      (tI .finWait1 1000 5001).state = .finWait1 := ⟨⟨rfl, rfl, rfl⟩, rfl, by decide +kernel⟩

theorem witness_StateOnlyCases_rC1a :
    sequencerAt (tS (tR .synReceived 5000 1001 false)) 0 .responder (tR .synReceived 5000 1001 false) ∧
      withinMax (tS (tR .synReceived 5000 1001 false)) (tF flagsAck).payload.length ∧
      (tF flagsAck).flags.ack = true ∧
      (tR .synReceived 5000 1001 false).state = .synReceived := ⟨⟨rfl, rfl, rfl⟩, rfl, by decide +kernel⟩

theorem witness_StateOnlyCases_rC6 :
    sequencerAt (tS (tR .lastAck 1001 1014 false)) 0 .responder (tR .lastAck 1001 1014 false) ∧
      withinMax (tS (tR .lastAck 1001 1014 false)) (tF flagsAck).payload.length ∧
      (tF flagsAck).flags.ack = true ∧
      (tR .lastAck 1001 1014 false).state = .lastAck ∧
      (tF flagsAck).ack = (tR .lastAck 1001 1014 false).sndSeq := ⟨⟨rfl, rfl, rfl⟩, rfl, by decide +kernel⟩

theorem witness_SynAckCompletesHandshake_replies :
    sequencerAt (tS (tI .synSent 1000 5001)) 0 .initiator (tI .synSent 1000 5001) ∧
      withinMax (tS (tI .synSent 1000 5001)) (tF flagsSynAck).payload.length ∧
      (tF flagsSynAck).flags.syn = true ∧
      (tF flagsSynAck).flags.ack = true ∧
      (tI .synSent 1000 5001).state = .synSent ∧
      (tF flagsSynAck).srcPort ≠ 0 ∧
      codecDecode (codecEncode (tF flagsSynAck)) = some (tF flagsSynAck) := ⟨⟨rfl, rfl, rfl⟩, rfl, by decide +kernel⟩

theorem witness_SynAckCompletesHandshake_unaddressed :
    sequencerAt (tS (tI .synSent 1000 5001)) 0 .initiator (tI .synSent 1000 5001) ∧
      withinMax (tS (tI .synSent 1000 5001)) (tF0 flagsSynAck).payload.length ∧
      (tF0 flagsSynAck).flags.syn = true ∧
      (tF0 flagsSynAck).flags.ack = true ∧
      (tI .synSent 1000 5001).state = .synSent ∧
      (tF0 flagsSynAck).srcPort = 0 ∧
      codecDecode (codecEncode (tF0 flagsSynAck)) = some (tF0 flagsSynAck) :=
      ⟨⟨rfl, rfl, rfl⟩, rfl, by decide +kernel⟩

theorem witness_SynAckCompletesHandshake_forced :
    sequencerAt (tS (tI .synAckReceived 1000 5001)) 0 .initiator (tI .synAckReceived 1000 5001) ∧
      withinMax (tS (tI .synAckReceived 1000 5001)) (tF flagsSynAck).payload.length ∧
      (tF flagsSynAck).flags.syn = true ∧
      (tF flagsSynAck).flags.ack = true ∧
      (tI .synAckReceived 1000 5001).state = .synAckReceived ∧
      (tF flagsSynAck).srcPort ≠ 0 := ⟨⟨rfl, rfl, rfl⟩, rfl, by decide +kernel⟩

theorem witness_DataAtInitiator_silent :
    sequencerAt (tS (tI .established 1000 5001)) 0 .initiator (tI .established 1000 5001) ∧
      withinMax (tS (tI .established 1000 5001)) (tF flagsPshAck).payload.length ∧
      (tF flagsPshAck).flags.psh = true ∧
      (tI .established 1000 5001).state = .established ∧
      (tS (tI .established 1000 5001)).par.iPshAutoack = false := ⟨⟨rfl, rfl, rfl⟩, rfl, by decide +kernel⟩

theorem witness_DataAtInitiator_autoack :
    sequencerAt (tP { Params.default with iPshAutoack :=
      true } [tI .dataReceived 1000 5001]) 0 .initiator (tI .dataReceived 1000 5001) ∧
      withinMax (tP { Params.default with iPshAutoack :=
      true } [tI .dataReceived 1000 5001]) (tF flagsPshAck).payload.length ∧
      (tF flagsPshAck).flags.psh = true ∧ (tI .dataReceived 1000 5001).state = .dataReceived ∧
      (tP { Params.default with iPshAutoack := true } [tI .dataReceived 1000 5001]).par.iPshAutoack = true ∧
      (tF flagsPshAck).srcPort ≠ 0 := ⟨⟨rfl, rfl, rfl⟩, rfl, by decide +kernel⟩

theorem witness_DataAtInitiator_autoack_unaddressed :
    sequencerAt (tP { Params.default with iPshAutoack :=
      true } [tI .dataReceived 1000 5001]) 0 .initiator (tI .dataReceived 1000 5001) ∧
      withinMax (tP { Params.default with iPshAutoack :=
      true } [tI .dataReceived 1000 5001]) (tF0 flagsPshAck).payload.length ∧
      (tF0 flagsPshAck).flags.psh = true ∧ (tI .dataReceived 1000 5001).state = .dataReceived ∧
      (tP { Params.default with iPshAutoack := true } [tI .dataReceived 1000 5001]).par.iPshAutoack = true ∧
      (tF0 flagsPshAck).srcPort = 0 := ⟨⟨rfl, rfl, rfl⟩, rfl, by decide +kernel⟩

theorem witness_FinAtInitiator_replies :
    sequencerAt (tS (tI .finWait2 1000 5001)) 0 .initiator (tI .finWait2 1000 5001) ∧
      withinMax (tS (tI .finWait2 1000 5001)) (tF flagsFin).payload.length ∧
      (tF flagsFin).flags.fin = true ∧
      (tF flagsFin).srcPort ≠ 0 := ⟨⟨rfl, rfl, rfl⟩, rfl, by decide +kernel⟩

theorem witness_SynAtListeningResponder_replies :
    sequencerAt (tS (tR .listening 5000 1001 false)) 0 .responder (tR .listening 5000 1001 false) ∧
      withinMax (tS (tR .listening 5000 1001 false)) (tF flagsSyn).payload.length ∧
      (tF flagsSyn).flags.syn = true ∧
      (tR .listening 5000 1001 false).state = .listening ∧
      (tF flagsSyn).srcPort ≠ 0 ∧
      codecDecode (codecEncode (tF flagsSyn)) = some (tF flagsSyn) := ⟨⟨rfl, rfl, rfl⟩, rfl, by decide +kernel⟩

theorem witness_DataAtResponder_replies_established :
    sequencerAt (tS (tR .established 5000 1001 false)) 0 .responder (tR .established 5000 1001 false) ∧
      withinMax (tS (tR .established 5000 1001 false)) (tF flagsPshAck).payload.length ∧
      (tF flagsPshAck).flags.psh = true ∧
      (tR .established 5000 1001 false).state = .established ∧
      (tF flagsPshAck).srcPort ≠ 0 := ⟨⟨rfl, rfl, rfl⟩, rfl, by decide +kernel⟩

theorem witness_DataAtResponder_replies_dataReceived :
    sequencerAt (tS (tR .dataReceived 5000 1001 false)) 0 .responder (tR .dataReceived 5000 1001 false) ∧
      withinMax (tS (tR .dataReceived 5000 1001 false)) (tF flagsPshAck).payload.length ∧
      (tF flagsPshAck).flags.psh = true ∧
      (tR .dataReceived 5000 1001 false).state = .dataReceived ∧
      (tF flagsPshAck).srcPort ≠ 0 := ⟨⟨rfl, rfl, rfl⟩, rfl, by decide +kernel⟩

theorem witness_FinAtResponder_lazy :
    sequencerAt (tS (tR .established 5000 1001 false)) 0 .responder (tR .established 5000 1001 false) ∧
      withinMax (tS (tR .established 5000 1001 false)) (tF flagsFinAck).payload.length ∧
      (tF flagsFinAck).flags.fin = true ∧
      (tR .established 5000 1001 false).state = .established ∧
      (tS (tR .established 5000 1001 false)).par.finPolicy = .lazy ∧
      (tF flagsFinAck).srcPort ≠ 0 := ⟨⟨rfl, rfl, rfl⟩, rfl, by decide +kernel⟩

theorem witness_OwedFin_sends :
    sequencerAt (tS (tR .closeWait 5000 1001 true)) 0 .responder (tR .closeWait 5000 1001 true) ∧
      withinMax (tS (tR .closeWait 5000 1001 true)) (tF flagsAck).payload.length ∧
      (tR .closeWait 5000 1001 true).finOwed = true ∧
      (tF flagsAck).srcPort ≠ 0 := ⟨⟨rfl, rfl, rfl⟩, rfl, by decide +kernel⟩

theorem witness_FinAtInitiator_unaddressed :
    sequencerAt (tS (tI .finWait2 1000 5001)) 0 .initiator (tI .finWait2 1000 5001) ∧
      withinMax (tS (tI .finWait2 1000 5001)) (tF0 flagsFin).payload.length ∧
      (tF0 flagsFin).flags.fin = true ∧
      (tF0 flagsFin).srcPort = 0 := ⟨⟨rfl, rfl, rfl⟩, rfl, by decide +kernel⟩

theorem witness_SynAtListeningResponder_unaddressed :
    sequencerAt (tS (tR .listening 5000 1001 false)) 0 .responder (tR .listening 5000 1001 false) ∧
      withinMax (tS (tR .listening 5000 1001 false)) (tF0 flagsSyn).payload.length ∧
      (tF0 flagsSyn).flags.syn = true ∧
      (tR .listening 5000 1001 false).state = .listening ∧
      (tF0 flagsSyn).srcPort = 0 ∧
      codecDecode (codecEncode (tF0 flagsSyn)) = some (tF0 flagsSyn) := ⟨⟨rfl, rfl, rfl⟩, rfl, by decide +kernel⟩

theorem witness_DataAtResponder_unaddressed_established :
    sequencerAt (tS (tR .established 5000 1001 false)) 0 .responder (tR .established 5000 1001 false) ∧
      withinMax (tS (tR .established 5000 1001 false)) (tF0 flagsPshAck).payload.length ∧
      (tF0 flagsPshAck).flags.psh = true ∧
      (tR .established 5000 1001 false).state = .established ∧
      (tF0 flagsPshAck).srcPort = 0 := ⟨⟨rfl, rfl, rfl⟩, rfl, by decide +kernel⟩

theorem witness_DataAtResponder_unaddressed_dataReceived :
    sequencerAt (tS (tR .dataReceived 5000 1001 false)) 0 .responder (tR .dataReceived 5000 1001 false) ∧
      withinMax (tS (tR .dataReceived 5000 1001 false)) (tF0 flagsPshAck).payload.length ∧
      (tF0 flagsPshAck).flags.psh = true ∧
      (tR .dataReceived 5000 1001 false).state = .dataReceived ∧
      (tF0 flagsPshAck).srcPort = 0 := ⟨⟨rfl, rfl, rfl⟩, rfl, by decide +kernel⟩

theorem witness_FinAtResponder_unaddressed :
    sequencerAt (tS (tR .established 5000 1001 false)) 0 .responder (tR .established 5000 1001 false) ∧
      withinMax (tS (tR .established 5000 1001 false)) (tF0 flagsFinAck).payload.length ∧
      (tF0 flagsFinAck).flags.fin = true ∧
      (tR .established 5000 1001 false).state = .established ∧
      (tS (tR .established 5000 1001 false)).par.finPolicy = .lazy ∧
      (tF0 flagsFinAck).srcPort = 0 := ⟨⟨rfl, rfl, rfl⟩, rfl, by decide +kernel⟩

theorem witness_OwedFin_unaddressed :
    sequencerAt (tS (tR .closeWait 5000 1001 true)) 0 .responder (tR .closeWait 5000 1001 true) ∧
      withinMax (tS (tR .closeWait 5000 1001 true)) (tF0 flagsAck).payload.length ∧
      (tR .closeWait 5000 1001 true).finOwed = true ∧
      (tF0 flagsAck).srcPort = 0 := ⟨⟨rfl, rfl, rfl⟩, rfl, by decide +kernel⟩

theorem witness_InertCases_initiator_receives :
    sequencerAt (tS (tI .established 1000 5001)) 0 .initiator (tI .established 1000 5001) ∧
      withinMax (tS (tI .established 1000 5001)) (tF noFlags).payload.length ∧
      ¬ takenBeforeIC5 (tI .established 1000 5001) (tF noFlags) ∧
      (tF noFlags).flags.fin = false ∧
      flags9 (tF noFlags).flags &&& 0x1F8 ≠ 0x080 ∧
      codecDecode (codecEncode (tF noFlags)) = some (tF noFlags) := ⟨⟨rfl, rfl, rfl⟩, rfl, by
  unfold takenBeforeIC5
  decide +kernel⟩

theorem witness_InertCases_responder_receives :
    sequencerAt (tS (tR .established 5000 1001 false)) 0 .responder (tR .established 5000 1001 false) ∧
      withinMax (tS (tR .established 5000 1001 false)) (tF flagsAck).payload.length ∧
      ¬ takenBeforeRC5 (tR .established 5000 1001 false) (tF flagsAck) ∧
      (tR .established 5000 1001 false).finOwed = false ∧
      codecDecode (codecEncode (tF flagsAck)) = some (tF flagsAck) := ⟨⟨rfl, rfl, rfl⟩, rfl, by
  unfold takenBeforeRC5
  decide +kernel⟩

theorem witness_InertCases_closed_receives :
    sequencerAt (tS (tI .closed 1000 5001)) 0 .initiator (tI .closed 1000 5001) ∧
      withinMax (tS (tI .closed 1000 5001)) (tF flagsFin).payload.length ∧
      (tI .closed 1000 5001).state = .closed ∧
      codecDecode (codecEncode (tF flagsFin)) = some (tF flagsFin) := ⟨⟨rfl, rfl, rfl⟩, rfl, by decide +kernel⟩

theorem witness_StateOnlyCases_iC2_receives :
    sequencerAt (tS (tI .synAckReceived 1000 5001)) 0 .initiator (tI .synAckReceived 1000 5001) ∧
      withinMax (tS (tI .synAckReceived 1000 5001)) (tF flagsAck).payload.length ∧
      (tF flagsAck).flags.ack = true ∧
      (tI .synAckReceived 1000 5001).state = .synAckReceived ∧
      (tF flagsAck).flags.syn = false ∧
      codecDecode (codecEncode (tF flagsAck)) = some (tF flagsAck) := ⟨⟨rfl, rfl, rfl⟩, rfl, by decide +kernel⟩

theorem witness_DataAtInitiator_receives :
    sequencerAt (tS (tI .established 1000 5001)) 0 .initiator (tI .established 1000 5001) ∧
      withinMax (tS (tI .established 1000 5001)) (tF flagsPshAck).payload.length ∧
      (tF flagsPshAck).flags.psh = true ∧
      (tI .established 1000 5001).state = .established ∧
      codecDecode (codecEncode (tF flagsPshAck)) = some (tF flagsPshAck) := ⟨⟨rfl, rfl, rfl⟩, rfl, by decide +kernel⟩

theorem witness_FinAtInitiator_receives :
    sequencerAt (tS (tI .finWait2 1000 5001)) 0 .initiator (tI .finWait2 1000 5001) ∧
      withinMax (tS (tI .finWait2 1000 5001)) (tF flagsFin).payload.length ∧
      ¬ takenBeforeIC5 (tI .finWait2 1000 5001) (tF flagsFin) ∧
      (tF flagsFin).flags.fin = true ∧
      codecDecode (codecEncode (tF flagsFin)) = some (tF flagsFin) := ⟨⟨rfl, rfl, rfl⟩, rfl, by
  unfold takenBeforeIC5
  decide +kernel⟩

theorem witness_BareAckAtInitiator_receives :
    sequencerAt (tS (tI .established 1000 5001)) 0 .initiator (tI .established 1000 5001) ∧
      withinMax (tS (tI .established 1000 5001)) (tF flagsAck).payload.length ∧
      ¬ takenBeforeIC5 (tI .established 1000 5001) (tF flagsAck) ∧
      (tF flagsAck).flags = { urg := false, ack := true, psh := false, rst := false, syn := false, fin := false } ∧
      codecDecode (codecEncode (tF flagsAck)) = some (tF flagsAck) := ⟨⟨rfl, rfl, rfl⟩, rfl, by
  unfold takenBeforeIC5
  decide +kernel⟩

theorem witness_FinAtResponder_receives :
    sequencerAt (tS (tR .established 5000 1001 false)) 0 .responder (tR .established 5000 1001 false) ∧
      withinMax (tS (tR .established 5000 1001 false)) (tF flagsFinAck).payload.length ∧
      (tF flagsFinAck).flags.fin = true ∧
      (tR .established 5000 1001 false).state = .established ∧
      (tF flagsFinAck).flags.psh = false ∧
      codecDecode (codecEncode (tF flagsFinAck)) = some (tF flagsFinAck) := ⟨⟨rfl, rfl, rfl⟩, rfl, by decide +kernel⟩

theorem witness_OwedFin_receives :
    sequencerAt (tS (tR .closeWait 5000 1001 true)) 0 .responder (tR .closeWait 5000 1001 true) ∧
      withinMax (tS (tR .closeWait 5000 1001 true)) (tF flagsAck).payload.length ∧
      ¬ takenBeforeRC5 (tR .closeWait 5000 1001 true) (tF flagsAck) ∧
      (tR .closeWait 5000 1001 true).finOwed = true ∧
      codecDecode (codecEncode (tF flagsAck)) = some (tF flagsAck) := ⟨⟨rfl, rfl, rfl⟩, rfl, by
  unfold takenBeforeRC5
  decide +kernel⟩

theorem witness_BareAckAtInitiator_identity :
    sequencerAt (tS (tI .established 1000 5001)) 0 .initiator (tI .established 1000 5001) ∧
      withinMax (tS (tI .established 1000 5001)) (tF flagsAck).payload.length ∧
      (tF flagsAck).flags = { urg := false, ack := true, psh := false, rst := false, syn := false, fin := false } ∧
      (tS (tI .established 1000 5001)).par.bareAck = .identity := ⟨⟨rfl, rfl, rfl⟩, rfl, by decide +kernel⟩

theorem witness_BareAckAtInitiator_unspecified :
    sequencerAt (tP { Params.default with bareAck :=
      .unspecified } [tI .established 1000 5001]) 0 .initiator (tI .established 1000 5001) ∧
      withinMax (tP { Params.default with bareAck :=
      .unspecified } [tI .established 1000 5001]) (tF flagsAck).payload.length ∧
      (tF flagsAck).flags = { urg := false, ack := true, psh := false, rst := false, syn := false, fin := false } ∧
      (tP { Params.default with bareAck := .unspecified } [tI .established 1000 5001]).par.bareAck = .unspecified :=
      ⟨⟨rfl, rfl, rfl⟩, rfl, by decide +kernel⟩

theorem witness_FinAtResponder_eager :
    sequencerAt (tP { Params.default with finPolicy :=
      .eager } [tR .dataReceived 5000 1001 false]) 0 .responder (tR .dataReceived 5000 1001 false) ∧
      withinMax (tP { Params.default with finPolicy :=
      .eager } [tR .dataReceived 5000 1001 false]) (tF flagsFin).payload.length ∧
      (tF flagsFin).flags.fin = true ∧ (tR .dataReceived 5000 1001 false).state = .dataReceived ∧
      (tP { Params.default with finPolicy := .eager } [tR .dataReceived 5000 1001 false]).par.finPolicy = .eager ∧
      (tF flagsFin).srcPort ≠ 0 := ⟨⟨rfl, rfl, rfl⟩, rfl, by decide +kernel⟩

theorem witness_DeadCaseNeverMatches :
    sequencerAt (tS (tR .closeWait 5000 1001 false)) 0 .responder (tR .closeWait 5000 1001 false) ∧
      withinMax (tS (tR .closeWait 5000 1001 false)) (tF flagsFin).payload.length := ⟨⟨rfl, rfl, rfl⟩, rfl⟩

theorem witness_DispatchRowFallsToTheNext :
    (tS (tI .finWait2 1000 5001)).seqs[0]? = some (tI .finWait2 1000 5001) ∧
      (tI .finWait2 1000 5001).state ≠ .closed ∧
      ¬ ((tF noFlags).flags.syn = true ∧ (tF noFlags).flags.ack = true ∧
      ((tI .finWait2 1000 5001).state = .synSent ∨ (tI .finWait2 1000 5001).state = .synAckReceived)) ∧
      ¬ ((tF noFlags).flags.ack = true ∧ (tI .finWait2 1000 5001).state = .synAckReceived) ∧
      ¬ ((tF noFlags).flags.psh = true ∧ ((tI .finWait2 1000 5001).state =
      .established ∨ (tI .finWait2 1000 5001).state = .dataReceived)) ∧
      ¬ ((tF noFlags).flags.ack = true ∧ (tI .finWait2 1000 5001).state = .finWait1) ∧
      (tF noFlags).flags.fin = false ∧
      flags9 (tF noFlags).flags &&& 0x1F8 ≠ 0x080 ∧ ¬ ((tI .finWait2 1000 5001).state = .listening ∧
      (tF noFlags).flags.syn = true) ∧
      ¬ ((tI .finWait2 1000 5001).state = .synReceived ∧ (tF noFlags).flags.ack = true) ∧
      ¬ ((tF noFlags).flags.fin = true ∧ ((tI .finWait2 1000 5001).state =
      .established ∨ (tI .finWait2 1000 5001).state = .dataReceived)) ∧
      ¬ ((tI .finWait2 1000 5001).state = .lastAck ∧ (tF noFlags).flags.ack = true ∧
      (tF noFlags).ack = (tI .finWait2 1000 5001).sndSeq) ∧
      (tI .finWait2 1000 5001).finOwed = false := ⟨rfl, by decide +kernel⟩

theorem witness_ShortWireIsMalformed_initiator :
    sequencerAt (tS (tI .synSent 1000 5001)) 0 .initiator (tI .synSent 1000 5001) ∧
      ((wireOfBytes wSyn).take 159).length < 160 := ⟨⟨rfl, rfl, rfl⟩, by decide +kernel⟩

theorem witness_ReceivePerformsTheList_initiator :
    codecDecode (wireOfBytes wSyn) = some (tG wSyn) ∧
      withinMax (tS (tI .synSent 1000 5001)) (tG wSyn).payload.length ∧
      sequencerAt (tS (tI .synSent 1000 5001)) 0 .initiator (tI .synSent 1000 5001) :=
      ⟨by decide +kernel, rfl, rfl, rfl, rfl⟩

theorem witness_ShortWireIsMalformed_responder :
    sequencerAt (tS (tR .listening 5000 1001 false)) 0 .responder (tR .listening 5000 1001 false) ∧
      ((wireOfBytes wSyn).take 159).length < 160 := ⟨⟨rfl, rfl, rfl⟩, by decide +kernel⟩

theorem witness_ReceivePerformsTheList_responder :
    codecDecode (wireOfBytes wSyn) = some (tG wSyn) ∧
      withinMax (tS (tR .listening 5000 1001 false)) (tG wSyn).payload.length ∧
      sequencerAt (tS (tR .listening 5000 1001 false)) 0 .responder (tR .listening 5000 1001 false) :=
      ⟨by decide +kernel, rfl, rfl, rfl, rfl⟩

theorem witness_ReceivePerformsTheList_bounded_initiator :
    codecDecode (wireOfBytes (wSyn ++ [1, 2])) = some (tG (wSyn ++ [1, 2])) ∧
      withinMax (tSmall (tI .established 1000 5001)) (tG (wSyn ++ [1, 2])).payload.length ∧
      sequencerAt (tSmall (tI .established 1000 5001)) 0 .initiator (tI .established 1000 5001) :=
      ⟨by decide +kernel, by
  unfold withinMax
  decide +kernel, rfl, rfl, rfl⟩

theorem witness_ReceivePerformsTheList_bounded_responder :
    codecDecode (wireOfBytes (wSyn ++ [1, 2])) = some (tG (wSyn ++ [1, 2])) ∧
      withinMax (tSmall (tR .established 5000 1001 false)) (tG (wSyn ++ [1, 2])).payload.length ∧
      sequencerAt (tSmall (tR .established 5000 1001 false)) 0 .responder (tR .established 5000 1001 false) :=
      ⟨by decide +kernel, by
  unfold withinMax
  decide +kernel, rfl, rfl, rfl⟩

theorem witness_ReceivePerformsTheList_over :
    codecDecode (wireOfBytes (wSyn ++ [1, 2, 3])) = some (tG (wSyn ++ [1, 2, 3])) ∧
      ¬ withinMax (tSmall (tI .established 1000 5001)) (tG (wSyn ++ [1, 2, 3])).payload.length :=
      ⟨by decide +kernel, by
  unfold withinMax
  decide +kernel⟩

theorem witness_OutsideTheInterfaceIsRefused_responder :
    ((tS (tR .synSent 5000 1001 false)).seqs[0]? = some (tR .synSent 5000 1001 false) ∧
      wireOverMax (tS (tR .synSent 5000 1001 false)).par (wireOfBytes wSyn) = false ∧
        (tR .synSent 5000 1001 false).role = .responder ∧ (tR .synSent 5000 1001 false).state = .synSent) ∧
      ((tS (tR .synAckReceived 5000 1001 false)).seqs[0]? = some (tR .synAckReceived 5000 1001 false) ∧
      wireOverMax (tS (tR .synAckReceived 5000 1001 false)).par (wireOfBytes wSyn) = false ∧
        (tR .synAckReceived 5000 1001 false).role = .responder ∧
      (tR .synAckReceived 5000 1001 false).state = .synAckReceived) ∧
      ((tS (tR .finWait1 5000 1001 false)).seqs[0]? = some (tR .finWait1 5000 1001 false) ∧
      wireOverMax (tS (tR .finWait1 5000 1001 false)).par (wireOfBytes wSyn) = false ∧
        (tR .finWait1 5000 1001 false).role = .responder ∧ (tR .finWait1 5000 1001 false).state = .finWait1) ∧
      ((tS (tR .finWait2 5000 1001 false)).seqs[0]? = some (tR .finWait2 5000 1001 false) ∧
      wireOverMax (tS (tR .finWait2 5000 1001 false)).par (wireOfBytes wSyn) = false ∧
        (tR .finWait2 5000 1001 false).role = .responder ∧ (tR .finWait2 5000 1001 false).state = .finWait2) ∧
      ((tS (tR .timeWait 5000 1001 false)).seqs[0]? = some (tR .timeWait 5000 1001 false) ∧
      wireOverMax (tS (tR .timeWait 5000 1001 false)).par (wireOfBytes wSyn) = false ∧
        (tR .timeWait 5000 1001 false).role = .responder ∧
      (tR .timeWait 5000 1001 false).state = .timeWait) := by decide +kernel

theorem witness_OutsideTheInterfaceIsRefused_initiator :
    ((tS (tI .listening 1000 5001)).seqs[0]? = some (tI .listening 1000 5001) ∧
      wireOverMax (tS (tI .listening 1000 5001)).par (wireOfBytes wSyn) = false ∧
        (tI .listening 1000 5001).role = .initiator ∧ (tI .listening 1000 5001).state = .listening) ∧
      ((tS (tI .synReceived 1000 5001)).seqs[0]? = some (tI .synReceived 1000 5001) ∧
      wireOverMax (tS (tI .synReceived 1000 5001)).par (wireOfBytes wSyn) = false ∧
        (tI .synReceived 1000 5001).role = .initiator ∧ (tI .synReceived 1000 5001).state = .synReceived) ∧
      ((tS (tI .closeWait 1000 5001)).seqs[0]? = some (tI .closeWait 1000 5001) ∧
      wireOverMax (tS (tI .closeWait 1000 5001)).par (wireOfBytes wSyn) = false ∧
        (tI .closeWait 1000 5001).role = .initiator ∧ (tI .closeWait 1000 5001).state = .closeWait) ∧
      ((tS (tI .lastAck 1000 5001)).seqs[0]? = some (tI .lastAck 1000 5001) ∧
      wireOverMax (tS (tI .lastAck 1000 5001)).par (wireOfBytes wSyn) = false ∧
        (tI .lastAck 1000 5001).role = .initiator ∧ (tI .lastAck 1000 5001).state = .lastAck) := by decide +kernel

theorem witness_OutsideTheInterfaceIsRefused_missing :
    (tS (tI .closed 1000 5001)).seqs[1]? = none ∧ withinMax (tS (tI .closed 1000 5001)) hello.length ∧
      wireOverMax (tS (tI .closed 1000 5001)).par (wireOfBytes wSyn) = false := ⟨rfl, rfl, by decide +kernel⟩

theorem witness_RegistrationWritesItsTable_initiator :
    (tS (tI .closed 1000 5001)).seqs[0]? = some (tI .closed 1000 5001) ∧
      (tI .closed 1000 5001).role = .initiator := ⟨rfl, rfl⟩

theorem witness_RegistrationWritesItsTable_responder :
    (tS (tR .listening 5000 1001 false)).seqs[0]? = some (tR .listening 5000 1001 false) ∧
      (tR .listening 5000 1001 false).role = .responder := ⟨rfl, rfl⟩

theorem witness_TransmitAppends_room :
    ∃ s : State, s.par.queueDepth = some 2 ∧ s.q.length < 2 := 
  ⟨{ tSmall (tI .closed 1000 0) with q := [tRec wSyn 12345 80] }, rfl, by decide +kernel⟩

theorem witness_TransmitAppends_full :
    ∃ s : State, s.par.queueDepth = some 2 ∧ 2 ≤ s.q.length := 
  ⟨{ tSmall (tI .closed 1000 0) with q := [tRec wSyn 12345 80, tRec wSyn 12345 80] }, rfl, by decide +kernel⟩

theorem witness_ResponderTableFirst_responder :
    tableGet (tLink (tI .synSent 1000 0) (tR .listening 5000 0 false) wSyn).rtab 80 = some 1 := rfl

theorem witness_ResponderTableFirst_initiator :
    tableGet (tLink (tI .synSent 1000 0) (tR .listening 5000 0 false) wSyn).rtab 12345 = none ∧
      tableGet (tLink (tI .synSent 1000 0) (tR .listening 5000 0 false) wSyn).itab 12345 = some 0 := ⟨rfl, rfl⟩

theorem witness_ResponderTableFirst_nobody :
    tableGet (tLink (tI .synSent 1000 0) (tR .listening 5000 0 false) wSyn).rtab 0 = none ∧
      tableGet (tLink (tI .synSent 1000 0) (tR .listening 5000 0 false) wSyn).itab 0 = none := ⟨rfl, rfl⟩

theorem witness_DeliverWithoutOwner_empty :
    ({ tLink (tI .synSent 1000 0) (tR .listening 5000 0 false) wSyn with q := [] } : State).q = [] := rfl

theorem witness_DeliverWithoutOwner_unknown :
    ∃ s : State, s.q = tRec wSyn 12345 81 :: [tRec wSyn 12345 80] ∧ tableGet s.rtab 81 = none ∧
      tableGet s.itab 81 = none := 
  ⟨{ tLink (tI .synSent 1000 0) (tR .listening 5000 0 false) wSyn with q :=
      [tRec wSyn 12345 81, tRec wSyn 12345 80] }, rfl, rfl, rfl⟩

/-- A SYN-SENT Initiator and a LISTENING Responder, registered, with the given queue. -/
def tFull (d : Nat) (q : List DeliveryRecord) : State :=
  { tP { Params.default with payloadMax := some 2, queueDepth := some d }
      [tI .synSent 1000 0, tR .listening 5000 0 false] with
    itab := [(12345, 0)], rtab := [(80, 1)], q := q }

/-- The records a next state hands over. -/
def seenHandover : Host.Outcome State Fault Refusal → Option (List DeliveryRecord)
  | .next t => some t.handover
  | _ => none

/-- An outcome whose records are seen is a next state with those records. -/
theorem next_of_handover {x : Host.Outcome State Fault Refusal} {rs : List DeliveryRecord}
    (h : seenHandover x = some rs) : ∃ t, x = .next t ∧ t.handover = rs := by
  cases x with
  | next t => exact ⟨t, rfl, Option.some.inj h⟩
  | fault r => cases h
  | refused r => cases h

theorem witness_DeliverIsReceiveOperation_fits :
    ∃ t, wireOverMax (tFull 2 (tRec wSyn 12345 80 :: [tRec wSyn 12345 80])).par (wireOfBytes wSyn) = false ∧
      route (tFull 2 (tRec wSyn 12345 80 :: [tRec wSyn 12345 80])) 80 = some (.responder, 1) ∧
      sequencerAt (tFull 2 (tRec wSyn 12345 80 :: [tRec wSyn 12345 80])) 1 .responder (tR .listening 5000 0 false) ∧
      exec (recvInstr 1 (wireOfBytes wSyn) .responder)
        { tFull 2 (tRec wSyn 12345 80 :: [tRec wSyn 12345 80]) with
          q := [tRec wSyn 12345 80], handover := [] } = .next t ∧
      fitsBehind (tFull 2 (tRec wSyn 12345 80 :: [tRec wSyn 12345 80])) [tRec wSyn 12345 80] t.handover := by
  obtain ⟨t, ht, hq⟩ := next_of_handover (rs := [tRec wSynAck 80 12345]) (x := exec (recvInstr 1 (wireOfBytes wSyn)
    .responder) { tFull 2 (tRec wSyn 12345 80 :: [tRec wSyn 12345 80]) with
      q := [tRec wSyn 12345 80], handover := [] }) (by decide +kernel)
  refine ⟨t, by decide +kernel, rfl, ⟨rfl, rfl, rfl⟩, ht, ?_⟩
  rw [hq]
  simp [fitsBehind, tFull, tP, State.resetWith]

theorem witness_DeliverIsReceiveOperation_full :
    ∃ t, wireOverMax (tFull 1 (tRec wSyn 12345 80 :: [tRec wSyn 12345 80])).par (wireOfBytes wSyn) = false ∧
      route (tFull 1 (tRec wSyn 12345 80 :: [tRec wSyn 12345 80])) 80 = some (.responder, 1) ∧
      sequencerAt (tFull 1 (tRec wSyn 12345 80 :: [tRec wSyn 12345 80])) 1 .responder (tR .listening 5000 0 false) ∧
      exec (recvInstr 1 (wireOfBytes wSyn) .responder)
        { tFull 1 (tRec wSyn 12345 80 :: [tRec wSyn 12345 80]) with
          q := [tRec wSyn 12345 80], handover := [] } = .next t ∧
      ¬ fitsBehind (tFull 1 (tRec wSyn 12345 80 :: [tRec wSyn 12345 80])) [tRec wSyn 12345 80] t.handover := by
  obtain ⟨t, ht, hq⟩ := next_of_handover (rs := [tRec wSynAck 80 12345]) (x := exec (recvInstr 1 (wireOfBytes wSyn)
    .responder) { tFull 1 (tRec wSyn 12345 80 :: [tRec wSyn 12345 80]) with
      q := [tRec wSyn 12345 80], handover := [] }) (by decide +kernel)
  refine ⟨t, by decide +kernel, rfl, ⟨rfl, rfl, rfl⟩, ht, ?_⟩
  rw [hq]
  simp [fitsBehind, tFull, tP, State.resetWith]

theorem witness_DeliverIsReceiveOperation_over :
    route (tFull 2 [tRec (wSyn ++ [1, 2, 3]) 12345 80]) 80 = some (.responder, 1) ∧
      sequencerAt (tFull 2 [tRec (wSyn ++ [1, 2, 3]) 12345 80]) 1 .responder (tR .listening 5000 0 false) ∧
      wireOverMax (tFull 2 [tRec (wSyn ++ [1, 2, 3]) 12345 80]).par (wireOfBytes (wSyn ++ [1, 2, 3])) = true :=
      ⟨rfl, ⟨rfl, rfl, rfl⟩, by decide +kernel⟩

theorem witness_DeliverIsReceiveOperation_initiator :
    route (tFull 1 [tRec wSynAck 80 12345]) 12345 = some (.initiator, 0) ∧
      sequencerAt (tFull 1 [tRec wSynAck 80 12345]) 0 .initiator (tI .synSent 1000 0) ∧
      wireOverMax (tFull 1 [tRec wSynAck 80 12345]).par (wireOfBytes wSynAck) = false :=
      ⟨rfl, ⟨rfl, rfl, rfl⟩, by decide +kernel⟩

theorem witness_DrainRepeatsDeliver_deliverRefused :
    seenRefusal (exec .nDeliver (tFull 1 [tRec wSyn 12345 80, tRec wSyn 12345 80])) = some .queueFull :=
      by decide +kernel

theorem witness_DrainRepeatsDeliver_laterRefused :
    ∃ s t : State, s.handover = [] ∧ s.draining = true ∧ deliveries 1 s t ∧
      exec .nDeliver t = .refused .payloadOverMax := by
  have h : (match exec .nDeliver { tFull 2 [tRec wSyn 12345 80, tRec (wSyn ++ [1, 2, 3]) 12345 80] with draining :=
      true } with
      | .next s' => seenRefusal (exec .nDeliver s')
      | _ => none) = some .payloadOverMax := by decide +kernel
  split at h
  · rename_i t ht
    refine ⟨_, t, rfl, rfl, ⟨by simp [tFull], t, ht, rfl⟩, ?_⟩
    cases hd : exec .nDeliver t with
    | next u => rw [hd] at h; cases h
    | fault r => rw [hd] at h; cases h
    | refused r => rw [hd] at h; simp only [seenRefusal, Option.some.injEq] at h; rw [h]
  · cases h

/-- The handshake's SYN in the queue and an N.DRAIN requested. -/
def tDrain : State := { tLink (tI .synSent 1000 0) (tR .listening 5000 0 false) wSyn with inbox := [.drainAll] }

/-- The same with the drain under way and another request waiting. -/
def tDraining : State :=
  { tLink (tI .synSent 1000 0) (tR .listening 5000 0 false) wSyn with draining := true, inbox := [.deliverNext] }

theorem witness_DrainEndsWithEmptyQueue :
    drainNext tDrain ∧ drainNext tDraining := ⟨⟨rfl, .inr ⟨[], rfl⟩⟩, ⟨rfl, .inl rfl⟩⟩

theorem witness_DrainCompletes :
    unbounded tDrain ∧ tablesOk tDrain ∧ labelsOk tDrain ∧ drainNext tDrain := by
  refine ⟨⟨rfl, rfl⟩, ⟨⟨rfl, ?_⟩, ⟨rfl, ?_⟩⟩, ?_, ⟨rfl, .inr ⟨[], rfl⟩⟩⟩ <;>
    simp [tDrain, tLink, tP, tI, tR, State.resetWith, labelsOk, ownState]

theorem witness_DrainRepeatsDeliver_empty :
    ({ tLink (tI .synSent 1000 0) (tR .listening 5000 0 false) wSyn with q := [] } : State).q = [] := rfl

theorem witness_DrainRepeatsDeliver :
    ∃ t, tDraining.handover = [] ∧ tDraining.draining = true ∧ deliveries 1 tDraining t := by
  obtain ⟨t, ht⟩ := next_of_seen (x := exec .nDeliver tDraining) (by decide +kernel)
  exact ⟨t, rfl, rfl, by simp [tDraining, tLink], t, ht, rfl⟩

theorem witness_DrainCompletesHandshake :
    ∃ s : State, ∃ i r : Machine.Seq, drainNext s ∧ unbounded s ∧ sequencerAt s 0 .initiator i ∧
      sequencerAt s 1 .responder r ∧
      i.state = .synSent ∧ r.state = .listening ∧ i.port ≠ 0 ∧ r.port ≠ 0 ∧
      tableGet s.rtab r.port = some 1 ∧ tableGet s.rtab i.port = none ∧ tableGet s.itab i.port = some 0 ∧
      s.q = [builtOut s.par i flagsSyn r.port i.sndSeq i.rcvAck []] := 
  ⟨tDrain, tI .synSent 1000 0, tR .listening 5000 0 false, ⟨rfl, .inr ⟨[], rfl⟩⟩, ⟨rfl, rfl⟩, ⟨rfl, rfl, rfl⟩,
      ⟨rfl, rfl, rfl⟩, rfl, rfl,
    by decide +kernel, by decide +kernel, rfl, rfl, rfl, by decide +kernel⟩

theorem witness_StepRunsTheDecodedInstruction :
    ∃ s : State, s.handover = [] ∧ s.draining = false ∧ s.inbox = .script .standard [0x0D, 0x0E] :: [.drainAll] ∧
      decodeRequest s.seqs (.script .standard [0x0D, 0x0E]) = .ok (.nDeliver, some (.script .standard [0x0E])) := 
  ⟨{ tS (tI .closed 1000 0) with inbox := [.script .standard [0x0D, 0x0E], .drainAll] }, rfl, rfl, rfl, rfl⟩

theorem witness_StepRunsTheDecodedInstruction_draining :
    tDraining.handover = [] ∧ tDraining.draining = true := ⟨rfl, rfl⟩

theorem witness_HandoverGoesFirst :
    ∃ s : State, s.par.queueDepth = none ∧ s.handover = tRec wSyn 12345 80 :: [] := 
  ⟨{ tS (tI .synSent 1000 0) with handover := [tRec wSyn 12345 80] }, rfl, rfl⟩

theorem witness_HandoverGoesFirst_room :
    ∃ s : State, s.par.queueDepth = some 2 ∧ s.handover = tRec wSynAck 80 12345 :: [] ∧ s.q.length < 2 := 
  ⟨{ tFull 2 [tRec wSyn 12345 80] with
      handover := [tRec wSynAck 80 12345] }, rfl, rfl, by decide +kernel⟩

theorem witness_HandoverGoesFirst_full :
    ∃ s : State, s.par.queueDepth = some 2 ∧ s.handover = tRec wSynAck 80 12345 :: [] ∧ 2 ≤ s.q.length := 
  ⟨{ tFull 2 [tRec wSyn 12345 80, tRec wSyn 12345 80] with
      handover := [tRec wSynAck 80 12345] }, rfl, rfl, by decide +kernel⟩

theorem witness_ReceiveInterfaceIsReceiveOperation :
    ∃ s : State, s.handover = [] ∧ s.draining = false ∧ s.inbox = .receive 0 (wireOfBytes wSynAck) :: [] ∧
      s.seqs[0]? = some (tI .synSent 1000 0) := 
  ⟨tAsk (tI .synSent 1000 0) (.receive 0 (wireOfBytes wSynAck)), rfl, rfl, rfl, rfl⟩

theorem witness_ScriptLineRoundTrip :
    WellFormed .standard (.iSend 0 80 [0x78]) = true ∧
      encodeLine (.iSend 0 80 [0x78]) = some [0x05, 0x00, 0x50, 0x00, 0x01, 0x78] := by decide +kernel

theorem witness_ScriptLineIsUnique :
    decodeLine .standard [0x05, 0x00, 0x50, 0x00, 0x01, 0x78, 0x0E] = .ok (.iSend 0 80 [0x78], [0x0E]) :=
      by decide +kernel

theorem witness_SegmentFormsRoundTrip :
    WellFormed .standard (.seg 0x0000000000000000000000005001000000000000 [true]) = true := by decide +kernel

theorem witness_DispatchFormsRoundTrip :
    ([tI .synSent 1000 0] : List Machine.Seq)[0]? = some (tI .synSent 1000 0) ∧
      selectCase (tI .synSent 1000 0) (flags9 (tF flagsSynAck).flags) (tF flagsSynAck) = .iC1 := by decide +kernel

theorem witness_ResetValues :
    SeqConfig.pair[1]? = some { role := .responder, port := 80, iss := 5000 } := rfl

/-- A state that satisfies the invariant,
      about to make a step that emits: an Initiator in SYN-SENT receives SYN+ACK. -/
def tRun : State := { tLink (tI .synSent 1000 0) (tR .listening 5000 5000 false) wSyn with inbox :=
      [.receive 0 (wireOfBytes wSynAck)] }

theorem witness_StepKeepsTheInvariant :
    Inv tRun ∧ ∃ t, step tRun = .next t := 
  ⟨by
  refine ⟨?_, ⟨⟨rfl, ?_⟩, ⟨rfl, ?_⟩⟩, ?_, ?_⟩ <;>
    simp [drainOk, tRun, tLink, tP, tI, tR, State.resetWith, sequencersOk, seqInv, initiatorInv, responderInv,
      finEmitted,
      initiatorReachable, responderReachable, handoverOk], next_of_seen (by decide +kernel)⟩

theorem witness_StepKeepsTheInvariant_draining :
    drainOk tDraining ∧ tDraining.draining = true ∧ ∃ t, step tDraining = .next t := 
  ⟨fun _ => ⟨by simp [tDraining, tLink], rfl⟩, rfl, next_of_seen (by decide +kernel)⟩

theorem witness_StepKeepsConstants :
    ∃ t, step tRun = .next t := 
  next_of_seen (by decide +kernel)

theorem witness_LifecycleIsMonotone :
    sequencersOk tRun ∧ ∃ t, step tRun = .next t ∧ tRun.seqs[0]? = some (tI .synSent 1000 0) ∧
      ∃ e', t.seqs[0]? = some e' := by
  refine ⟨witness_StepKeepsTheInvariant.1.1, ?_⟩
  have h : seen (step tRun) = some ([.ok], [tI .established 1000 5001, tR .listening 5000 5000 false],
      [(wAck1, 80)]) := by decide +kernel
  cases hs : step tRun with
  | next t =>
    rw [hs] at h
    simp only [seen, Option.some.injEq, Prod.mk.injEq] at h
    exact ⟨t, rfl, rfl, tI .established 1000 5001, by simp [h.2.1]⟩
  | fault r => rw [hs] at h; cases h
  | refused r => rw [hs] at h; cases h

theorem witness_ClosedIsInert_initiator :
    (tS (tI .closed 1013 5001)).seqs[0]? = some (tI .closed 1013 5001) ∧ (tI .closed 1013 5001).state = .closed ∧
      ((tI .closed 1013 5001).role = .responder → (tI .closed 1013 5001).finOwed = false) ∧
      ∃ t, exec (recvInstr 0 (wireOfBytes wSyn) (tI .closed 1013 5001).role) (tS (tI .closed 1013 5001)) = .next t := 
  ⟨rfl, rfl, fun _ => rfl, next_of_seen (by decide +kernel)⟩

theorem witness_ClosedIsInert_responder :
    (tS (tR .closed 5001 1014 false)).seqs[0]? = some (tR .closed 5001 1014 false) ∧
      (tR .closed 5001 1014 false).state = .closed ∧
      ((tR .closed 5001 1014 false).role = .responder → (tR .closed 5001 1014 false).finOwed = false) ∧
      ∃ t, exec (recvInstr 0 (wireOfBytes wSyn) (tR .closed 5001 1014 false).role) (tS (tR .closed 5001 1014 false)) = .next t := 
  ⟨rfl, rfl, fun _ => rfl, next_of_seen (by decide +kernel)⟩

/-- An instruction that runs on a sequencer 0, with the sequencer found before and after. -/
theorem runs_on_first {i : Instr} {e e' : Machine.Seq} {st : Status} {tx : List (List Byte × Port)}
    (h : seen (exec i (tS e)) = some ([st], [e'], tx)) :
    ∃ t, (tS e).seqs[0]? = some e ∧ exec i (tS e) = .next t ∧ t.seqs[0]? = some e' := by
  cases hs : exec i (tS e) with
  | next t =>
    rw [hs] at h
    simp only [seen, Option.some.injEq, Prod.mk.injEq] at h
    exact ⟨t, rfl, rfl, by simp [h.2.1]⟩
  | fault r => rw [hs] at h; cases h
  | refused r => rw [hs] at h; cases h

theorem witness_RegisterAccessByOperation_iOpen :
    ∃ t, (tS (tI .closed 1000 0)).seqs[0]? = some (tI .closed 1000 0) ∧
      exec (.iOpen 0 80) (tS (tI .closed 1000 0)) = .next t ∧ t.seqs[0]? = some (tI .synSent 1000 0) := 
  runs_on_first (st := .ok) (tx := [(wSyn, 80)]) (by decide +kernel)

theorem witness_RegisterAccessByOperation_iSend :
    ∃ t, (tS (tI .established 1000 5001)).seqs[0]? = some (tI .established 1000 5001) ∧
      exec (.iSend 0 80 hello) (tS (tI .established 1000 5001)) = .next t ∧
      t.seqs[0]? = some (tI .established 1013 5001) := 
  runs_on_first (st := .ok) (tx := [(wData, 80)]) (by decide +kernel)

theorem witness_RegisterAccessByOperation_iClose :
    ∃ t, (tS (tI .established 1000 5001)).seqs[0]? = some (tI .established 1000 5001) ∧
      exec (.iClose 0 80) (tS (tI .established 1000 5001)) = .next t ∧ t.seqs[0]? = some (tI .finWait1 1000 5001) := 
  runs_on_first (st := .ok) (tx := [([0x30, 0x39, 0x00, 0x50, 0x00, 0x00, 0x03, 0xE8, 0x00, 0x00, 0x13, 0x89, 0x50,
      0x88, 0x00, 0x00, 0x00, 0x00, 0x00, 0x00], 80)]) (by decide +kernel)

theorem witness_RegisterAccessByOperation_iExpire :
    ∃ t, (tS (tI .timeWait 1000 5001)).seqs[0]? = some (tI .timeWait 1000 5001) ∧
      exec (.iExpire 0) (tS (tI .timeWait 1000 5001)) = .next t ∧ t.seqs[0]? = some (tI .closed 1000 5001) := 
  runs_on_first (st := .ok) (tx := []) (by decide +kernel)

theorem witness_RegisterAccessByOperation_iRecv :
    ∃ t, (tS (tI .synSent 1000 0)).seqs[0]? = some (tI .synSent 1000 0) ∧
      exec (.iRecv 0 (wireOfBytes wSynAck)) (tS (tI .synSent 1000 0)) = .next t ∧
      t.seqs[0]? = some (tI .established 1000 5001) := 
  runs_on_first (st := .ok) (tx := [(wAck1, 80)]) (by decide +kernel)

theorem witness_RegisterAccessByOperation_rRecv :
    ∃ t, (tS (tR .established 5000 1001 false)).seqs[0]? = some (tR .established 5000 1001 false) ∧
      exec (.rRecv 0 (wireOfBytes wFinAck)) (tS (tR .established 5000 1001 false)) = .next t ∧
      t.seqs[0]? = some (tR .closeWait 5000 1014 true) := 
  runs_on_first (st := .ok) (tx := [(wFAck, 12345)]) (by decide +kernel)

theorem witness_InitiatorSequenceAdvancesOnlyInSend :
    ∃ t, (tS (tI .established 1000 5001)).seqs[0]? = some (tI .established 1000 5001) ∧
      exec (.iSend 0 80 hello) (tS (tI .established 1000 5001)) = .next t ∧
      t.seqs[0]? = some (tI .established 1013 5001) ∧ (tI .established 1000 5001).role = .initiator := by
  obtain ⟨t, h⟩ := witness_RegisterAccessByOperation_iSend
  exact ⟨t, h.1, h.2.1, h.2.2, rfl⟩

theorem witness_OnlyTheAddressedSequencerChanges :
    (∃ t, exec .nDeliver (tLink (tI .synSent 1000 0) (tR .listening 5000 0 false) wSyn) = .next t) ∧
      touched (tLink (tI .synSent 1000 0) (tR .listening 5000 0 false) wSyn) .nDeliver ≠ some 0 := 
  ⟨next_of_seen (by decide +kernel), by decide +kernel⟩

theorem witness_OnlyTheAddressedSequencerChanges_drain :
    (∃ t, exec .nDrain (tLink (tI .synSent 1000 0) (tR .listening 5000 0 false) wSyn) = .next t) ∧
      touched (tLink (tI .synSent 1000 0) (tR .listening 5000 0 false) wSyn) .nDrain ≠ some 0 := 
  ⟨next_of_seen (by decide +kernel), by decide +kernel⟩

theorem witness_LinkStateFrame_sequencer :
    ∃ t, exec (.iOpen 0 80) (tS (tI .closed 1000 0)) = .next t ∧ isLinkOp (.iOpen 0 80) = false := by
  obtain ⟨t, h⟩ := witness_RegisterAccessByOperation_iOpen
  exact ⟨t, h.2.1, rfl⟩

theorem witness_LinkStateFrame_link :
    (∃ t, exec .nDeliver (tLink (tI .synSent 1000 0) (tR .listening 5000 0 false) wSyn) = .next t) ∧
      isLinkOp .nDeliver = true := 
  ⟨next_of_seen (by decide +kernel), rfl⟩

theorem witness_UnreadFieldsDoNotMatter :
    ∃ g g' : Segment, codecDecode (wireOfBytes wSyn) = some g ∧
      codecDecode (codecEncode g') = some g' ∧ g' ≠ g ∧
      g'.seq = g.seq ∧ g'.srcPort = g.srcPort ∧ g'.payload.length = g.payload.length ∧
      (tS (tI .synSent 1000 0)).par.bareAck = .identity ∧ g'.flags = g.flags ∧ g'.ack = g.ack := 
  ⟨tG wSyn, { tG wSyn with dstPort := 999, dataOffset := 15, reserved := 7, window := 1, checksum := 2, urgent := 3 },
    by decide +kernel⟩

theorem witness_StatusInterfaceReads :
    (tS (tI .synSent 1000 0)).seqs[0]? = some (tI .synSent 1000 0) := rfl

end Sys2Proof.Tests
end

/-! PROOF. The status interface of a sequencer (R53): it reads the table entry and writes nothing. -/

namespace Sys2Proof.Proofs

open Sys2Proof Sys2Proof.Machine

/-- Settles O60: `statusRead` maps the view over the looked-up sequencer, so the lookup's answer decides it. -/
theorem statusInterfaceReads : Obligations.StatusInterfaceReads := by
  intro s n e hlookup
  simp only [statusRead, hlookup, Option.map_some]

end Sys2Proof.Proofs

/-! PROOF. The codec (40_codec.md): a field of a wire reads back from where it was written and writes back what was
read; from this the two round trips (R144, R145), the lengths (R146), and what ENCODE and DECODE answer (R141,
R142). -/

namespace Sys2Proof.Proofs

open Sys2Proof Sys2Proof.Machine Sys2Proof.Laws

/-! ### Fields of a wire (R11, R72) -/

/-- A number of `n` bits lies below `2 ^ n`. -/
theorem natOfBits_lt (w : Wire) : natOfBits w < 2 ^ w.length := by
  induction w using List.reverseRecOn with
  | nil => simp [natOfBits]
  | append_singleton w b ih =>
    have hb : b.toNat ≤ 1 := Bool.toNat_le b
    rw [natOfBits_append_singleton, List.length_append, List.length_singleton, pow_succ]
    omega

/-- A wire is known from its length and its number: the last bit is the parity, the others are the half. -/
theorem eq_of_natOfBits_eq {u v : Wire} (hlen : u.length = v.length) (hval : natOfBits u = natOfBits v) : u = v := by
  induction u using List.reverseRecOn generalizing v with
  | nil => exact (List.length_eq_zero_iff.mp hlen.symm).symm
  | append_singleton u b ih =>
    cases v using List.reverseRecOn with
    | nil => simp at hlen
    | append_singleton v c =>
      have hb : b.toNat ≤ 1 := Bool.toNat_le b
      have hc : c.toNat ≤ 1 := Bool.toNat_le c
      rw [natOfBits_append_singleton, natOfBits_append_singleton] at hval
      have hinit : u = v := ih (by simpa using hlen) (by omega)
      have hbit : b.toNat = c.toNat := by omega
      have hlast : b = c := by rw [← Bool.ofNat_toNat b, hbit, Bool.ofNat_toNat]
      rw [hinit, hlast]

/-- Writing back a field that was read gives the bits it was read from. -/
theorem bitsN_memRead (w : Wire) (p n : Nat) (h : p + n ≤ w.length) : bitsN (memRead w p n) = (w.drop p).take n := by
  have hlen : ((w.drop p).take n).length = n := by simp; omega
  have hlt : natOfBits ((w.drop p).take n) < 2 ^ n := by simpa only [hlen] using natOfBits_lt ((w.drop p).take n)
  apply eq_of_natOfBits_eq
  · rw [bitsN_length, hlen]
  · rw [natOfBits_bitsN, memRead, BitVec.toNat_ofNat, Nat.mod_eq_of_lt hlt]

/-- A field behind another wire is read at its offset in what follows. -/
theorem memRead_append_right (pre post : Wire) (p n : Nat) (h : pre.length ≤ p) :
    memRead (pre ++ post) p n = memRead post (p - pre.length) n := by
  rw [memRead, memRead, List.drop_append, List.drop_eq_nil_of_le h, List.nil_append]

/-- The first field of a wire. -/
@[simp] theorem memRead_bitsN_append {n : Nat} (v : BitVec n) (post : Wire) : memRead (bitsN v ++ post) 0 n = v :=
  memRead_field [] post v 0 rfl

/-- The bits of a field that was read, one by one. -/
theorem memRead_getMsbD (w : Wire) (p n k : Nat) (h : p + n ≤ w.length) (hk : k < n) :
    (memRead w p n).getMsbD k = bitAt w (p + k) := by
  have hbit := bitAt_bitsN (memRead w p n) [] k hk
  rw [List.append_nil, bitsN_memRead w p n h] at hbit
  rw [← hbit]
  simp [bitAt, hk]

/-- Two adjacent stretches of a wire are one stretch. -/
theorem take_drop_append_take_drop (w : Wire) (p m q n : Nat) (h : q = p + m) :
    (w.drop p).take m ++ (w.drop q).take n = (w.drop p).take (m + n) := by
  rw [h, ← List.drop_drop, ← List.take_add]

/-! ### Payload bytes (R42, R148) -/

/-- Bytes read back from where they were written. -/
theorem map_memRead_wireOfBytes (bs : List Byte) (pre : Wire) :
    ((List.range bs.length).map fun j => memRead (pre ++ wireOfBytes bs) (pre.length + 8 * j) 8) = bs := by
  induction bs generalizing pre with
  | nil => rfl
  | cons b bs ih =>
    have htail := ih (pre ++ bitsN b)
    rw [List.length_cons, List.range_succ_eq_map, List.map_cons, List.map_map]
    congr 1
    · exact memRead_field pre (wireOfBytes bs) b _ rfl
    · simpa [Function.comp_def, Nat.mul_add, Nat.add_assoc, Nat.add_comm] using htail

/-- Writing back `k` bytes that were read gives the bits they were read from. -/
theorem wireOfBytes_map_memRead (w : Wire) (p k : Nat) (h : p + 8 * k ≤ w.length) :
    wireOfBytes ((List.range k).map fun j => memRead w (p + 8 * j) 8) = (w.drop p).take (8 * k) := by
  induction k with
  | zero => rfl
  | succ k ih =>
    have hinit := ih (by omega)
    rw [wireOfBytes] at hinit ⊢
    rw [List.range_succ, List.map_append, List.flatMap_append, hinit, List.map_singleton, List.flatMap_singleton,
      bitsN_memRead w _ 8 (by omega), take_drop_append_take_drop w p (8 * k) _ 8 rfl, Nat.mul_succ]

/-! ### The flags field (R103) -/

/-- The wire of a flags field: the six flags in order, then three padding bits 0. -/
theorem bitsN_flags9 (f : FlagSet) :
    bitsN (flags9 f) = [f.urg, f.ack, f.psh, f.rst, f.syn, f.fin, false, false, false] := by
  rcases f with ⟨a, b, c, d, e, g⟩
  cases a <;> cases b <;> cases c <;> cases d <;> cases e <;> cases g <;> rfl

/-- The flags of a decoded wire are those of its flags field (R103). -/
theorem decodeFields_flags (w : Wire) (h : 112 ≤ w.length) :
    (decodeFields w).flags = flagsOfField (wireFlags9 w) := by
  have hbit (k : Nat) (hk : k < 9) : bitAt w (103 + k) = (wireFlags9 w).getMsbD k :=
    (memRead_getMsbD w 103 9 k h hk).symm
  exact (FlagSet.mk.injEq ..).mpr ⟨hbit 0 (by decide), hbit 1 (by decide), hbit 2 (by decide), hbit 3 (by decide),
    hbit 4 (by decide), hbit 5 (by decide)⟩

/-- Re-encoding a decoded flags field keeps the six flags and clears the padding (R145). -/
theorem bitsN_flags9_decodeFields (w : Wire) (h : 109 ≤ w.length) :
    bitsN (flags9 (decodeFields w).flags) = (w.drop 103).take 6 ++ bitsN (0 : BitVec 3) := by
  have hbits : bitsN (memRead w 103 6) = (List.range 6).map fun k => bitAt w (103 + k) :=
    List.map_congr_left fun k hk => memRead_getMsbD w 103 6 k h (List.mem_range.mp hk)
  rw [bitsN_flags9, ← bitsN_memRead w 103 6 h, hbits]
  rfl

/-! ### Lengths (R146) -/

@[simp] theorem codecEncode_length (g : Segment) : (codecEncode g).length = 160 + 8 * g.payload.length := by
  simp [codecEncode]

@[simp] theorem decodePayload_length (w : Wire) : (decodePayload w).length = (w.length - 160) / 8 := by
  simp [decodePayload]

/-- Settles O3: the encoded length is the header's and the payload's, and the decoded payload is listed by its count. -/
theorem codecLengths : Obligations.CodecLengths := by
  constructor
  · intro g
    rw [codecEncode_length]
    omega
  · intro w g hw hg
    rw [codecDecode_of_long hw] at hg
    cases hg
    exact decodePayload_length w

/-! ### DECODE of an encoded record (R144) -/

/-- The payload bytes stand behind the 160 header bits. -/
theorem decodePayload_codecEncode (g : Segment) : decodePayload (codecEncode g) = g.payload := by
  have hcount : ((codecEncode g).length - 160) / 8 = g.payload.length := by rw [codecEncode_length]; omega
  have hbytes := map_memRead_wireOfBytes g.payload (encodeHeader g)
  rwa [encodeHeader_length, ← codecEncode, ← hcount] at hbytes

/-- The flags read back from the flags field of the encoding. -/
theorem decodeFields_codecEncode_flags (g : Segment) : (decodeFields (codecEncode g)).flags = g.flags := by
  have hfield : wireFlags9 (codecEncode g) = flags9 g.flags := by
    simp [wireFlags9, codecEncode, encodeHeader, memRead_append_right]
  rw [decodeFields_flags _ (by rw [codecEncode_length]; omega), hfield, flagsOfField_flags9]

/-- Every field of a record is read back from its encoding, by walking over the fields before it. -/
theorem decodeFields_codecEncode (g : Segment) : decodeFields (codecEncode g) = g := by
  have hflags := decodeFields_codecEncode_flags g
  simp only [decodeFields] at hflags ⊢
  rw [hflags, decodePayload_codecEncode]
  simp [codecEncode, encodeHeader, memRead_append_right]

/-- An encoding has a whole header, so DECODE reads its fields. -/
theorem codecDecode_codecEncode (g : Segment) : codecDecode (codecEncode g) = some g := by
  rw [codecDecode_of_long (by simp), decodeFields_codecEncode]

/-- Settles O1: field by field, `decodeFields_codecEncode`. -/
theorem encodeDecodeRoundTrip : Obligations.EncodeDecodeRoundTrip := codecDecode_codecEncode

/-! ### Re-encoding a decoded wire (R145) -/

/-- Taking a whole first part and some of what follows. -/
theorem take_append_add (pre post : Wire) {n : Nat} (k : Nat) (h : pre.length = n) :
    (pre ++ post).take (n + k) = pre ++ post.take k := by
  subst h
  exact List.take_length_add_append k

/-- Setting the three padding positions to 0. -/
theorem set_padding (pre pad post : Wire) (hpre : pre.length = 109) (hpad : pad.length = 3) :
    (((pre ++ (pad ++ post)).set 109 false).set 110 false).set 111 false = pre ++ (bitsN (0 : BitVec 3) ++ post) := by
  obtain ⟨a, b, c, rfl⟩ := List.length_eq_three.mp hpad
  have hzero : bitsN 0#3 = [false, false, false] := rfl
  simp [List.set_append_right, hpre, hzero]

/-- A wire, cut at its padding. -/
theorem take_append_padding_append_drop (w : Wire) : w.take 109 ++ ((w.drop 109).take 3 ++ w.drop 112) = w := by
  rw [← List.drop_drop (i := 3) (j := 109), List.take_append_drop, List.take_append_drop]

/-- The cleared wire in its parts: what stands before the padding, the padding 0, and the rest up to the last whole
byte. -/
theorem clearedWire_eq (w : Wire) (h : 160 ≤ w.length) :
    clearedWire w =
      w.take 109 ++ (bitsN (0 : BitVec 3) ++ (w.drop 112).take (48 + 8 * ((w.length - 160) / 8))) := by
  have hpre : (w.take 109).length = 109 := by simp; omega
  have hset := set_padding (w.take 109) ((w.drop 109).take 3) (w.drop 112) hpre (by simp; omega)
  have hlast : w.length - (w.length - 160) % 8 = 109 + (3 + (48 + 8 * ((w.length - 160) / 8))) := by omega
  rw [take_append_padding_append_drop] at hset
  rw [clearedWire, hset, hlast, take_append_add _ _ _ hpre, take_append_add _ _ _ (bitsN_length _)]

/-- Encoding a decoded wire: each field writes back the bits it was read from, save the padding. -/
theorem codecEncode_decodeFields (w : Wire) (h : 160 ≤ w.length) : codecEncode (decodeFields w) = clearedWire w := by
  have hpayload : wireOfBytes (decodePayload w) = (w.drop 160).take (8 * ((w.length - 160) / 8)) :=
    wireOfBytes_map_memRead w 160 _ (by omega)
  have hflags := bitsN_flags9_decodeFields w (by omega)
  rw [clearedWire_eq w h, codecEncode, encodeHeader, hflags]
  simp only [decodeFields, hpayload]
  simp (disch := omega) only [bitsN_memRead, ← List.append_assoc, take_drop_append_take_drop]
  simp (disch := omega) only [List.append_assoc, take_drop_append_take_drop]
  simp only [Nat.reduceAdd, List.drop_zero]

/-- Clearing changes nothing exactly when the padding is 0 and there is no ragged tail. -/
theorem clearedWire_eq_self_iff (w : Wire) (h : 160 ≤ w.length) :
    clearedWire w = w ↔ memRead w 109 3 = 0 ∧ (w.length - 160) % 8 = 0 := by
  have hpre : (w.take 109).length = 109 := by simp; omega
  have hcleared := clearedWire_eq w h
  constructor
  · intro hself
    have hlen := congrArg List.length hself
    simp only [clearedWire, List.length_take, List.length_set] at hlen
    have hpad : memRead (clearedWire w) 109 3 = 0 := by rw [hcleared, memRead_field _ _ 0 109 hpre]
    rw [hself] at hpad
    exact ⟨hpad, by omega⟩
  · rintro ⟨hpad, htail⟩
    have hbits := bitsN_memRead w 109 3 (by omega)
    rw [hpad] at hbits
    have hrest : (w.drop 112).length ≤ 48 + 8 * ((w.length - 160) / 8) := by rw [List.length_drop]; omega
    rw [hcleared, hbits, List.take_of_length_le hrest, take_append_padding_append_drop]

/-- DECODE sees no more of a wire than its cleared form. -/
theorem codecDecode_clearedWire (w : Wire) (h : 160 ≤ w.length) : codecDecode (clearedWire w) = codecDecode w := by
  rw [← codecEncode_decodeFields w h, codecDecode_codecEncode, codecDecode_of_long h]

/-- One bit more than whole bytes is a ragged tail, and is removed. -/
theorem clearedWire_append_bit (w : Wire) (b : Bool) (h : 160 ≤ w.length) (hwhole : (w.length - 160) % 8 = 0) :
    clearedWire (w ++ [b]) = clearedWire w := by
  have hcount : ((w ++ [b]).length - 160) / 8 = (w.length - 160) / 8 := by
    rw [List.length_append, List.length_singleton]
    omega
  have hrest : 48 + 8 * ((w.length - 160) / 8) ≤ (w.drop 112).length := by rw [List.length_drop]; omega
  rw [clearedWire_eq w h, clearedWire_eq (w ++ [b]) (by simp; omega), hcount,
    List.take_append_of_le_length (by omega), List.drop_append_of_le_length (by omega),
    List.take_append_of_le_length hrest]

/-- Settles O2: DECODE reads the fields that `codecEncode_decodeFields` writes back; a header of zeros with and without
one further bit are two wires that decode alike. -/
theorem reencodeClearsPaddingAndTail : Obligations.ReencodeClearsPaddingAndTail := by
  have hagree (w w' : Wire) (hw : 160 ≤ w.length) (hw' : 160 ≤ w'.length) (hc : clearedWire w = clearedWire w') :
      codecDecode w = codecDecode w' := by
    rw [← codecDecode_clearedWire w hw, hc, codecDecode_clearedWire w' hw']
  refine ⟨fun w hw => ?_, hagree, bitsN (0 : BitVec 160), bitsN (0 : BitVec 160) ++ [true], ?_⟩
  · refine ⟨decodeFields w, codecDecode_of_long hw, codecEncode_decodeFields w hw, ?_⟩
    rw [codecEncode_decodeFields w hw, clearedWire_eq_self_iff w hw]
  · have hlen : (bitsN (0 : BitVec 160)).length = 160 := bitsN_length _
    have hragged := clearedWire_append_bit (bitsN (0 : BitVec 160)) true (by omega) (by omega)
    refine ⟨?_, hagree _ _ (by omega) (by simp) hragged.symm, ?_⟩
    · exact fun h => List.cons_ne_nil _ _ (List.self_eq_append_right.mp h)
    · rw [codecDecode_of_long (by omega)]
      exact Option.some_ne_none _

/-! ### The transactions ENCODE and DECODE (R141, R142) -/

/-- The meaning of the instruction ENCODE. -/
theorem exec_encode (g : Segment) (s : State) : exec (.encode g) s = execEncode g s := rfl

/-- The meaning of the instruction DECODE. -/
theorem exec_decode (w : Wire) (s : State) : exec (.decode w) s = answerDecode w s := rfl

/-- ENCODE within `PAYLOAD_MAX` (R141). -/
theorem execEncode_within {g : Segment} {s : State} (h : withinMax s g.payload.length) :
    execEncode g s = .next (s.answerWire (codecEncode g)) :=
  if_neg (by rw [h]; exact Bool.false_ne_true)

/-- ENCODE over `PAYLOAD_MAX` (R141). -/
theorem execEncode_over {g : Segment} {s : State} (h : ¬ withinMax s g.payload.length) :
    execEncode g s = .refused .payloadOverMax :=
  if_pos (Bool.of_not_eq_false h)

/-- The wire of a record, every field and flag in its place (R141). -/
theorem codecEncode_eq_fields (g : Segment) :
    codecEncode g =
      bitsN g.srcPort ++ bitsN g.dstPort ++ bitsN g.seq ++ bitsN g.ack ++ bitsN g.dataOffset ++ bitsN g.reserved ++
        [g.flags.urg, g.flags.ack, g.flags.psh, g.flags.rst, g.flags.syn, g.flags.fin, false, false, false] ++
        bitsN g.window ++ bitsN g.checksum ++ bitsN g.urgent ++ g.payload.flatMap bitsN := by
  rw [codecEncode, encodeHeader, bitsN_flags9, wireOfBytes]

/-- Settles O6: by the two cases of ENCODE, the wire written out field by field. -/
theorem encodeAnswersItsWire : Obligations.EncodeAnswersItsWire := by
  intro g s
  rw [exec_encode, ← codecEncode_eq_fields]
  exact ⟨execEncode_within, execEncode_over⟩

/-- A wire without a whole header has no payload to be over `PAYLOAD_MAX`. -/
theorem wireOverMax_of_short (p : Params) {w : Wire} (h : w.length < 160) : wireOverMax p w = false := by
  rw [wireOverMax, decide_eq_false (by omega), Bool.false_and]

/-- The payload count that is held against `PAYLOAD_MAX` (R142). -/
theorem wireOverMax_of_long (p : Params) {w : Wire} (h : 160 ≤ w.length) :
    wireOverMax p w = overLimit p.payloadMax ((w.length - 160) / 8) := by
  rw [wireOverMax, decide_eq_true h, Bool.true_and]

/-- DECODE of a wire without a whole header (R142). -/
theorem answerDecode_short {w : Wire} (s : State) (h : w.length < 160) :
    answerDecode w s = .next (s.answer .malformedSegment) := by
  rw [answerDecode, wireOverMax_of_short _ h, codecDecode_of_short h]
  rfl

/-- DECODE of a wire with a payload within `PAYLOAD_MAX` (R142). -/
theorem answerDecode_within {w : Wire} {s : State} (h : 160 ≤ w.length)
    (hmax : withinMax s ((w.length - 160) / 8)) :
    answerDecode w s = .next (s.answerRecord (some (decodeFields w))) := by
  rw [answerDecode, wireOverMax_of_long _ h, hmax, codecDecode_of_long h]
  rfl

/-- DECODE of a wire with a payload over `PAYLOAD_MAX` (R142). -/
theorem answerDecode_over {w : Wire} {s : State} (h : 160 ≤ w.length)
    (hmax : ¬ withinMax s ((w.length - 160) / 8)) : answerDecode w s = .refused .payloadOverMax := by
  rw [answerDecode, wireOverMax_of_long _ h, Bool.of_not_eq_false hmax]
  rfl

/-- Settles O7: by the three cases of DECODE, `decodeFields` being the record the statement writes out. -/
theorem decodeAnswersRecordOrMalformed : Obligations.DecodeAnswersRecordOrMalformed := by
  intro w s
  rw [exec_decode]
  exact ⟨answerDecode_short s, answerDecode_within, answerDecode_over⟩

end Sys2Proof.Proofs

/-! PROOF. A step of one sequencer, said once for both roles: the state after a step that raises an error, after a step
that succeeds, and after a step behind the unaddressed check (10_state.md R50 to R52, 41_initiator.md R171, R178). -/

namespace Sys2Proof.Proofs

open Sys2Proof Sys2Proof.Machine Sys2Proof.Laws

/-! ### What a step leaves in the state -/

/-- An error writes back the sequencer it found, and so changes nothing but the answer (R279). -/
theorem commit_raise {s : State} {n : Nat} {e : Seq} (he : s.seqs[n]? = some e) (st : Status) :
    s.commit n (raise st e) = afterStatus s st := by
  obtain ⟨hn, rfl⟩ := List.getElem?_eq_some_iff.mp he
  simp only [State.commit, raise, List.set_getElem_self, List.append_nil]
  rfl

theorem commit_done (s : State) (n : Nat) (e : Seq) (tx : List DeliveryRecord) :
    s.commit n (done e tx) = afterStep s n e tx := rfl

/-- What `Emit` builds, field by field (R171). -/
theorem emit_eq_builtOut (p : Params) (e : Seq) (f : FlagSet) (dst : Port) (sq ak : Word32) (payload : List Byte) :
    emit p e f dst sq ak payload = builtOut p e f dst sq ak payload := rfl

theorem addressed_zero (e : Seq) (r : SeqResult) : addressed 0 e r = raise .unaddressedSegment e := if_pos rfl

/-! ### An operation on a sequencer of its own role -/

section OwnRole

variable {s : State} {n : Nat} {role : Role} {e e' : Seq} {f : Seq → SeqResult} {dst : Port} {st : Status}
  {tx : List DeliveryRecord}

theorem onSeq_of_raise (hat : sequencerAt s n role e) (hf : f e = raise st e) :
    onSeq role n f s = .next (afterStatus s st) := by
  obtain ⟨he, hrole, hown⟩ := hat
  rw [onSeq_eq he hrole hown, hf, commit_raise he]

theorem onSeq_of_done (hat : sequencerAt s n role e) (hf : f e = done e' tx) :
    onSeq role n f s = .next (afterStep s n e' tx) := by
  obtain ⟨he, hrole, hown⟩ := hat
  rw [onSeq_eq he hrole hown, hf, commit_done]

/-- A step behind the unaddressed check, with a nonzero port: the step (R178). -/
theorem onSeq_of_addressed (hat : sequencerAt s n role e) (hf : f e = addressed dst e (done e' tx)) (hdst : dst ≠ 0) :
    onSeq role n f s = .next (afterStep s n e' tx) :=
  onSeq_of_done hat (hf.trans (addressed_of_ne_zero dst e _ hdst))

/-- A step behind the unaddressed check, with port 0: the error (R178). -/
theorem onSeq_of_unaddressed (hat : sequencerAt s n role e) (hf : f e = addressed dst e (done e' tx)) (hdst : dst = 0) :
    onSeq role n f s = .next (afterStatus s .unaddressedSegment) := by
  subst hdst
  exact onSeq_of_raise hat (hf.trans (addressed_zero e _))

/-- An operation runs one sequencer, so it is decided by its step at that sequencer. -/
theorem onSeq_congr {f' : Seq → SeqResult} (he : s.seqs[n]? = some e) (hf : f e = f' e) :
    onSeq role n f s = onSeq role n f' s := by
  simp only [onSeq, he, hf]

/-- The same under a payload bound. -/
theorem onSeqWithin_congr {f' : Seq → SeqResult} (tooLong : Bool) (he : s.seqs[n]? = some e) (hf : f e = f' e) :
    onSeqWithin tooLong role n f s = onSeqWithin tooLong role n f' s := by
  cases tooLong with
  | true => rfl
  | false => exact onSeq_congr he hf

end OwnRole

/-! ### Labels and payload bounds -/

theorem estLike_iff (c : ConnState) : estLike c = true ↔ c = .established ∨ c = .dataReceived := by
  cases c <;> decide

theorem preEst_iff (c : ConnState) : preEst c = true ↔ c = .synSent ∨ c = .synAckReceived := by
  cases c <;> decide

/-- A wire is over `PAYLOAD_MAX` exactly when the payload of its record is (R142). -/
theorem wireOverMax_of_codecDecode (p : Params) {w : Wire} {g : Segment} (h : codecDecode w = some g) :
    wireOverMax p w = overLimit p.payloadMax g.payload.length := by
  have hlong : 160 ≤ w.length := by
    by_contra hshort
    rw [codecDecode_of_short (by omega)] at h
    cases h
  rw [wireOverMax_of_long p hlong, codecLengths.2 w g hlong h]

end Sys2Proof.Proofs

/-! PROOF. The Initiator (41_initiator.md): what each command's step is in and outside its labels, and from them the
commands I.OPEN, I.CLOSE and I.EXPIRE (R172, R174, R175); then the precedence list as rows that act or fall to the next
(30_encoding.md R111), I.RECV as the list from its first row on (R176), and the cases I-C1 and I-C3 (R181, R183). -/

namespace Sys2Proof.Proofs

open Sys2Proof Sys2Proof.Machine Sys2Proof.Laws

/-! ### The commands (R172, R174, R175) -/

theorem openStep_of_closed (p : Params) (dst : Port) {e : Seq} (h : e.state = .closed) :
    openStep p dst e =
      addressed dst e (done { e with state := .synSent } [builtOut p e flagsSyn dst e.sndSeq e.rcvAck []]) := if_pos h

theorem openStep_of_ne_closed (p : Params) (dst : Port) {e : Seq} (h : e.state ≠ .closed) :
    openStep p dst e = raise .invalidState e := if_neg h

theorem closeStep_of_estLike (p : Params) (dst : Port) {e : Seq} (h : estLike e.state = true) :
    closeStep p dst e =
      addressed dst e (done { e with state := .finWait1 } [builtOut p e flagsFinAck dst e.sndSeq e.rcvAck []]) :=
  if_pos h

theorem closeStep_of_not_estLike (p : Params) (dst : Port) {e : Seq} (h : ¬ estLike e.state = true) :
    closeStep p dst e = raise .invalidState e := if_neg h

theorem expireStep_of_timeWait {e : Seq} (h : e.state = .timeWait) :
    expireStep e = done { e with state := .closed } [] := if_pos h

theorem expireStep_of_ne_timeWait {e : Seq} (h : e.state ≠ .timeWait) : expireStep e = raise .invalidState e :=
  if_neg h

theorem exec_iOpen (n : Nat) (dst : Port) (s : State) :
    exec (.iOpen n dst) s = onSeq .initiator n (openStep s.par dst) s := rfl

theorem exec_iClose (n : Nat) (dst : Port) (s : State) :
    exec (.iClose n dst) s = onSeq .initiator n (closeStep s.par dst) s := rfl

theorem exec_iExpire (n : Nat) (s : State) : exec (.iExpire n) s = onSeq .initiator n expireStep s := rfl

/-- Settles O10: CLOSED decides between the guarded step and the error, the port between the step and its guard. -/
theorem openCommand : Obligations.OpenCommand := by
  intro s n e dst hat
  rw [exec_iOpen]
  refine ⟨fun hclosed => ?_, fun hstate => ?_, fun hclosed => ?_⟩
  · exact onSeq_of_addressed hat (openStep_of_closed s.par dst hclosed)
  · exact onSeq_of_raise hat (openStep_of_ne_closed s.par dst hstate)
  · exact onSeq_of_unaddressed hat (openStep_of_closed s.par dst hclosed)

/-- Settles O12: as I.OPEN, in the two labels of `estLike`. -/
theorem closeCommand : Obligations.CloseCommand := by
  intro s n e dst hat
  rw [exec_iClose, ← estLike_iff]
  refine ⟨fun hest => ?_, fun hne hnd => ?_, fun hest => ?_⟩
  · exact onSeq_of_addressed hat (closeStep_of_estLike s.par dst hest)
  · have hest : ¬ estLike e.state = true := by simp [estLike_iff, hne, hnd]
    exact onSeq_of_raise hat (closeStep_of_not_estLike s.par dst hest)
  · exact onSeq_of_unaddressed hat (closeStep_of_estLike s.par dst hest)

/-- Settles O13: TIME-WAIT decides. -/
theorem expireCommand : Obligations.ExpireCommand := by
  intro s n e hat
  rw [exec_iExpire]
  exact ⟨fun htw => onSeq_of_done hat (expireStep_of_timeWait htw),
    fun hne => onSeq_of_raise hat (expireStep_of_ne_timeWait hne)⟩

/-! ### The rows of the precedence list: each acts where its condition holds, else falls to the next (R15, R111) -/

section Rows

variable (p : Params) {e : Seq} {g : Segment}

theorem rowIC0_of_ne_closed (g : Segment) (h : e.state ≠ .closed) : rowIC0 p e g = rowIC1 p e g := if_neg h

theorem rowIC1_of_synAck (hsyn : g.flags.syn = true) (hack : g.flags.ack = true) (hpre : preEst e.state = true) :
    rowIC1 p e g = actIC1 p e g := if_pos ⟨⟨hsyn, hack⟩, hpre⟩

theorem rowIC1_of_not_preEst (g : Segment) (h : ¬ preEst e.state = true) : rowIC1 p e g = rowIC2 p e g :=
  if_neg fun hrow => h hrow.2

theorem rowIC2_of_ne_synAckReceived (g : Segment) (h : e.state ≠ .synAckReceived) : rowIC2 p e g = rowIC3 p e g :=
  if_neg fun hrow => h hrow.2

theorem rowIC3_of_psh (hpsh : g.flags.psh = true) (hest : estLike e.state = true) : rowIC3 p e g = actIC3 p e g :=
  if_pos ⟨hpsh, hest⟩

/-- Before ESTABLISHED the list reaches row I-C1. -/
theorem rowIC0_of_preEst (g : Segment) (h : preEst e.state = true) : rowIC0 p e g = rowIC1 p e g :=
  rowIC0_of_ne_closed p g fun hclosed => by simp [hclosed, preEst] at h

/-- In ESTABLISHED and DATA-RECEIVED no row before I-C3 has its label. -/
theorem rowIC0_of_estLike (g : Segment) (h : estLike e.state = true) : rowIC0 p e g = rowIC3 p e g := by
  have hclosed : e.state ≠ .closed := fun hs => by simp [hs, estLike] at h
  have hpre : ¬ preEst e.state = true := by
    rcases (estLike_iff e.state).mp h with hs | hs <;> simp [hs, preEst]
  have hsynAck : e.state ≠ .synAckReceived := fun hs => by simp [hs, estLike] at h
  rw [rowIC0_of_ne_closed p g hclosed, rowIC1_of_not_preEst p g hpre, rowIC2_of_ne_synAckReceived p g hsynAck]

end Rows

/-! ### The actions of I-C1 and I-C3, their replies written out (R181, R183) -/

theorem actIC1_eq (p : Params) (e : Seq) (g : Segment) :
    actIC1 p e g = addressed g.srcPort e (done { e with rcvAck := g.seq + 1, state := .established }
      [builtOut p e flagsAck g.srcPort e.sndSeq (g.seq + 1) []]) := rfl

theorem actIC3_silent {p : Params} (e : Seq) (g : Segment) (h : p.iPshAutoack = false) :
    actIC3 p e g =
      done { e with rcvAck := g.seq + BitVec.ofNat 32 g.payload.length, state := .dataReceived } [] :=
  if_neg (by simp [h])

theorem actIC3_autoack {p : Params} (e : Seq) (g : Segment) (h : p.iPshAutoack = true) :
    actIC3 p e g = addressed g.srcPort e
      (done { e with rcvAck := g.seq + BitVec.ofNat 32 g.payload.length, state := .dataReceived }
        [builtOut p e flagsAck g.srcPort e.sndSeq (g.seq + BitVec.ofNat 32 g.payload.length) []]) := if_pos h

/-! ### Received segments: a row as an instruction, and I.RECV of a wire (R176; log entry 8) -/

/-- A row, for a payload within `PAYLOAD_MAX`, is an operation on its sequencer. -/
theorem onInitiatorRow_of_withinMax (row : Params → Seq → Segment → SeqResult) (n : Nat) {g : Segment} {s : State}
    (h : withinMax s g.payload.length) :
    onInitiatorRow row n g s = onSeq .initiator n (fun e => row s.par e g) s := by
  rw [onInitiatorRow, h, onSeqWithin_false]

theorem onInitiatorRow_congr {row row' : Params → Seq → Segment → SeqResult} {n : Nat} {g : Segment} {s : State}
    {e : Seq} (he : s.seqs[n]? = some e) (hrow : row s.par e g = row' s.par e g) :
    onInitiatorRow row n g s = onInitiatorRow row' n g s :=
  onSeqWithin_congr _ he hrow

theorem exec_iC1 (n : Nat) (g : Segment) (s : State) : exec (.iC1 n g) s = onInitiatorRow rowIC1 n g s := rfl

theorem exec_iC3 (n : Nat) (g : Segment) (s : State) : exec (.iC3 n g) s = onInitiatorRow rowIC3 n g s := rfl

theorem exec_iRecv (n : Nat) (w : Wire) (s : State) :
    exec (.iRecv n w) s = onSeqWithin (wireOverMax s.par w) .initiator n (initiatorReceive s.par w) s := rfl

theorem initiatorReceive_of_codecDecode (p : Params) {w : Wire} {g : Segment} (h : codecDecode w = some g) :
    initiatorReceive p w = fun e => rowIC0 p e g := by
  funext e
  simp only [initiatorReceive, h]

/-- I.RECV of a wire is the list from its first row on, at the segment decoded (R176). -/
theorem exec_iRecv_of_codecDecode {w : Wire} {g : Segment} (n : Nat) (s : State) (h : codecDecode w = some g) :
    exec (.iRecv n w) s = onInitiatorRow rowIC0 n g s := by
  rw [exec_iRecv, wireOverMax_of_codecDecode s.par h, initiatorReceive_of_codecDecode s.par h, onInitiatorRow]

/-- Settles O18: row I-C1 acts, and before ESTABLISHED the list reaches it. -/
theorem synAckCompletesHandshake : Obligations.SynAckCompletesHandshake := by
  intro s n e g hat hmax hsyn hack hstate
  have hpre : preEst e.state = true := (preEst_iff e.state).mpr hstate
  have hrow := (rowIC1_of_synAck s.par hsyn hack hpre).trans (actIC1_eq s.par e g)
  have hexec := onInitiatorRow_of_withinMax rowIC1 n hmax
  rw [exec_iC1]
  refine ⟨fun hport => ?_, fun hport => ?_, fun w hw => ?_⟩
  · exact hexec.trans (onSeq_of_addressed hat hrow hport)
  · exact hexec.trans (onSeq_of_unaddressed hat hrow hport)
  · rw [exec_iRecv_of_codecDecode n s hw]
    exact onInitiatorRow_congr hat.1 (rowIC0_of_preEst s.par g hpre)

/-- Settles O19: row I-C3 acts, silently or with a reply behind the unaddressed check, and the list reaches it. -/
theorem dataAtInitiator : Obligations.DataAtInitiator := by
  intro s n e g hat hmax hpsh hstate
  have hest : estLike e.state = true := (estLike_iff e.state).mpr hstate
  have hrow := rowIC3_of_psh s.par hpsh hest
  have hexec := onInitiatorRow_of_withinMax rowIC3 n hmax
  rw [exec_iC3]
  refine ⟨fun hsilent => ?_, fun hauto hport => ?_, fun hauto hport => ?_, fun w hw => ?_⟩
  · exact hexec.trans (onSeq_of_done hat (hrow.trans (actIC3_silent e g hsilent)))
  · exact hexec.trans (onSeq_of_addressed hat (hrow.trans (actIC3_autoack e g hauto)) hport)
  · exact hexec.trans (onSeq_of_unaddressed hat (hrow.trans (actIC3_autoack e g hauto)) hport)
  · rw [exec_iRecv_of_codecDecode n s hw]
    exact onInitiatorRow_congr hat.1 (rowIC0_of_estLike s.par g hest)

end Sys2Proof.Proofs

/-! PROOF. The Responder (42_responder.md): the precedence list as rows that act or fall to the next (30_encoding.md
R112), R.RECV as the list from its first row on (R211), what a row behind the unaddressed check answers as an
instruction and through R.RECV, and from these the cases R-C1 and R-C2 (R212, R214). -/

namespace Sys2Proof.Proofs

open Sys2Proof Sys2Proof.Machine Sys2Proof.Laws

/-! ### The rows of the precedence list: each acts where its condition holds, else falls to the next (R15, R112) -/

section Rows

variable (p : Params) {e : Seq} {g : Segment}

theorem rowRC1_of_syn (hstate : e.state = .listening) (hsyn : g.flags.syn = true) : rowRC1 p e g = actRC1 p e g :=
  if_pos ⟨hstate, hsyn⟩

theorem rowRC1_of_ne_listening (g : Segment) (h : e.state ≠ .listening) : rowRC1 p e g = rowRC1a p e g :=
  if_neg fun hrow => h hrow.1

theorem rowRC1a_of_ne_synReceived (g : Segment) (h : e.state ≠ .synReceived) : rowRC1a p e g = rowRC2 p e g :=
  if_neg fun hrow => h hrow.1

theorem rowRC2_of_psh (hest : estLike e.state = true) (hpsh : g.flags.psh = true) : rowRC2 p e g = actRC2 p e g :=
  if_pos ⟨hest, hpsh⟩

/-- In ESTABLISHED and DATA-RECEIVED no row before R-C2 has its label. -/
theorem rowRC1_of_estLike (g : Segment) (h : estLike e.state = true) : rowRC1 p e g = rowRC2 p e g := by
  have hlistening : e.state ≠ .listening := fun hs => by simp [hs, estLike] at h
  have hsynReceived : e.state ≠ .synReceived := fun hs => by simp [hs, estLike] at h
  rw [rowRC1_of_ne_listening p g hlistening, rowRC1a_of_ne_synReceived p g hsynReceived]

end Rows

/-! ### The actions of R-C1 and R-C2, their replies written out (R212, R214) -/

theorem actRC1_eq (p : Params) (e : Seq) (g : Segment) :
    actRC1 p e g = addressed g.srcPort e (done { e with rcvAck := g.seq + 1, state := .synReceived }
      [builtOut p e flagsSynAck g.srcPort e.sndSeq (g.seq + 1) []]) := rfl

theorem actRC2_eq (p : Params) (e : Seq) (g : Segment) :
    actRC2 p e g = addressed g.srcPort e
      (done { e with rcvAck := g.seq + BitVec.ofNat 32 g.payload.length, state := .dataReceived }
        [builtOut p e flagsAck g.srcPort e.sndSeq (g.seq + BitVec.ofNat 32 g.payload.length) []]) := rfl

/-! ### Received segments: a row as an instruction, and R.RECV of a wire (R211; log entry 8) -/

theorem exec_rC1 (n : Nat) (g : Segment) (s : State) : exec (.rC1 n g) s = onResponderRow rowRC1 n g s := rfl

theorem exec_rC2 (n : Nat) (g : Segment) (s : State) : exec (.rC2 n g) s = onResponderRow rowRC2 n g s := rfl

theorem exec_rRecv (n : Nat) (w : Wire) (s : State) :
    exec (.rRecv n w) s = onSeqWithin (wireOverMax s.par w) .responder n (responderReceive s.par w) s := rfl

theorem responderReceive_of_codecDecode (p : Params) {w : Wire} {g : Segment} (h : codecDecode w = some g) :
    responderReceive p w = fun e => rowRC1 p e g := by
  funext e
  simp only [responderReceive, h]

/-- R.RECV of a wire is the list from its first row on, at the segment decoded (R211). -/
theorem exec_rRecv_of_codecDecode {w : Wire} {g : Segment} (n : Nat) (s : State) (h : codecDecode w = some g) :
    exec (.rRecv n w) s = onResponderRow rowRC1 n g s := by
  rw [exec_rRecv, wireOverMax_of_codecDecode s.par h, responderReceive_of_codecDecode s.par h, onResponderRow]

/-- A row, for a payload within `PAYLOAD_MAX`, is an operation on its sequencer. -/
theorem onResponderRow_of_withinMax (row : Params → Seq → Segment → SeqResult) (n : Nat) {g : Segment} {s : State}
    (h : withinMax s g.payload.length) :
    onResponderRow row n g s = onSeq .responder n (fun e => row s.par e g) s := by
  rw [onResponderRow, h, onSeqWithin_false]

theorem onResponderRow_congr {row row' : Params → Seq → Segment → SeqResult} {n : Nat} {g : Segment} {s : State}
    {e : Seq} (he : s.seqs[n]? = some e) (hrow : row s.par e g = row' s.par e g) :
    onResponderRow row n g s = onResponderRow row' n g s :=
  onSeqWithin_congr _ he hrow

/-- A row that acts behind the unaddressed check, and that the list reaches: the step from a nonzero source port, the
error from port 0 (R178), and R.RECV of the segment's wire the same. -/
theorem onResponderRow_of_addressed {row : Params → Seq → Segment → SeqResult} {s : State} {n : Nat} {e e' : Seq}
    {g : Segment} {tx : List DeliveryRecord} (hat : sequencerAt s n .responder e)
    (hmax : withinMax s g.payload.length) (hrow : row s.par e g = addressed g.srcPort e (done e' tx))
    (hreach : rowRC1 s.par e g = row s.par e g) :
    (g.srcPort ≠ 0 → onResponderRow row n g s = .next (afterStep s n e' tx)) ∧
    (g.srcPort = 0 → onResponderRow row n g s = .next (afterStatus s .unaddressedSegment)) ∧
    (∀ w, codecDecode w = some g → exec (.rRecv n w) s = onResponderRow row n g s) := by
  have hexec := onResponderRow_of_withinMax row n hmax
  refine ⟨fun hport => ?_, fun hport => ?_, fun w hw => ?_⟩
  · exact hexec.trans (onSeq_of_addressed hat hrow hport)
  · exact hexec.trans (onSeq_of_unaddressed hat hrow hport)
  · rw [exec_rRecv_of_codecDecode n s hw]
    exact onResponderRow_congr hat.1 hreach

/-- Settles O22: row R-C1 acts, and it is the first of the list. -/
theorem synAtListeningResponder : Obligations.SynAtListeningResponder := by
  intro s n e g hat hmax hsyn hstate
  have hrow := (rowRC1_of_syn s.par hstate hsyn).trans (actRC1_eq s.par e g)
  rw [exec_rC1]
  exact onResponderRow_of_addressed hat hmax hrow rfl

/-- Settles O23: row R-C2 acts, and in the two labels of `estLike` the list reaches it. -/
theorem dataAtResponder : Obligations.DataAtResponder := by
  intro s n e g hat hmax hpsh hstate
  have hest : estLike e.state = true := (estLike_iff e.state).mpr hstate
  have hrow := (rowRC2_of_psh s.par hest hpsh).trans (actRC2_eq s.par e g)
  rw [exec_rC2]
  exact onResponderRow_of_addressed hat hmax hrow (rowRC1_of_estLike s.par g hest)

end Sys2Proof.Proofs

/-! PROOF. The platform link (43_substrate.md): the room of the queue against `QUEUE_DEPTH` (R45, R289), and from it the
two cases of N.XMIT (R243). -/

namespace Sys2Proof.Proofs

open Sys2Proof Sys2Proof.Machine

/-! ### Capacities (R8, R45) -/

/-- A count lies within a capacity when it is at most the bound, if there is one (R8). -/
theorem overLimit_eq_false_iff (lim : Option Nat) (n : Nat) : overLimit lim n = false ↔ ∀ m, lim = some m → n ≤ m := by
  cases lim with
  | none => simp [overLimit]
  | some m => simp [overLimit]

/-- One or more records fit where they keep the queue within `QUEUE_DEPTH` (R45). -/
theorem queueHasRoom_succ_iff (s : State) (k : Nat) :
    queueHasRoom s (k + 1) = true ↔ ∀ d, s.par.queueDepth = some d → s.q.length + (k + 1) ≤ d := by
  have hpositive : (k + 1 == 0) = false := rfl
  rw [queueHasRoom, hpositive, Bool.false_or, Bool.not_eq_true', overLimit_eq_false_iff]

/-- One more record fits while the queue is shorter than `QUEUE_DEPTH` (R243). -/
theorem queueHasRoom_one_iff (s : State) :
    queueHasRoom s 1 = true ↔ ∀ d, s.par.queueDepth = some d → s.q.length < d :=
  queueHasRoom_succ_iff s 0

/-! ### N.XMIT (R243) -/

theorem exec_nXmit (w : Wire) (src dst : Port) (s : State) : exec (.nXmit w src dst) s = execNXmit w src dst s := rfl

/-- N.XMIT with room for the record: it goes to the tail, whatever the wire and the ports. -/
theorem execNXmit_room {s : State} (w : Wire) (src dst : Port) (h : queueHasRoom s 1 = true) :
    execNXmit w src dst s =
      .next (afterStatus { s with q := s.q ++ [{ wire := w, srcPort := src, dstPort := dst }] } .ok) :=
  if_pos h

/-- N.XMIT on a full queue (log entry 13). -/
theorem execNXmit_full {s : State} (w : Wire) (src dst : Port) (h : ¬ queueHasRoom s 1 = true) :
    execNXmit w src dst s = .refused .queueFull :=
  if_neg h

/-- Settles O32: the two cases of N.XMIT, the test for room read as the bound on the queue's length. -/
theorem transmitAppends : Obligations.TransmitAppends := by
  intro s w src dst
  rw [exec_nXmit]
  refine ⟨fun hbelow => ?_, fun d hdepth hfull => ?_⟩
  · exact execNXmit_room w src dst ((queueHasRoom_one_iff s).mpr hbelow)
  · have hnoRoom : ¬ queueHasRoom s 1 = true := fun hroom =>
      absurd ((queueHasRoom_one_iff s).mp hroom d hdepth) (Nat.not_lt.mpr hfull)
    exact execNXmit_full w src dst hnoRoom

end Sys2Proof.Proofs

/-! PROOF. The sixteen dispatch cases as one family: the role and the row of a case, its condition as the rules write it
(30_encoding.md R111, R112) against the opcode table's masks and labels, the fall of a row whose condition fails to the
row after it (R15), and from these that the table's selection is the precedence list (R100 (b)). -/

namespace Sys2Proof.Proofs

open Sys2Proof Sys2Proof.Machine Sys2Proof.Laws

/-! ### A case's row, condition and successor -/

/-- The role in whose list a dispatch case stands (R111, R112). -/
def caseRole : RxCase → Role
  | .iC0 | .iC1 | .iC2 | .iC3 | .iC4 | .iC5 | .iC6 | .iC7 => .initiator
  | .rC1 | .rC1a | .rC2 | .rC3 | .rC4 | .rC6 | .rC5 | .rC7 => .responder

/-- The precedence list of a role from a case on, as a step of one sequencer. -/
def caseRow : RxCase → Params → Seq → Segment → SeqResult
  | .iC0 => rowIC0
  | .iC1 => rowIC1
  | .iC2 => rowIC2
  | .iC3 => rowIC3
  | .iC4 => rowIC4
  | .iC5 => rowIC5
  | .iC6 => rowIC6
  | .iC7 => fun _ e _ => rowIC7 e
  | .rC1 => rowRC1
  | .rC1a => rowRC1a
  | .rC2 => rowRC2
  | .rC3 => rowRC3
  | .rC4 => rowRC4
  | .rC6 => rowRC6
  | .rC5 => rowRC5
  | .rC7 => fun _ e _ => rowRC7 e

/-- A dispatch instruction runs its case's row at its sequencer (log entry 8). -/
theorem exec_instr (c : RxCase) (n : Nat) (g : Segment) (s : State) :
    exec (c.instr n g) s =
      onSeqWithin (overLimit s.par.payloadMax g.payload.length) (caseRole c) n (fun e => caseRow c s.par e g) s := by
  cases c <;> rfl

/-- The condition of a row, in the words of its rule (R180 to R187, R212 to R219). -/
def caseCondition (e : Seq) (g : Segment) : RxCase → Prop
  | .iC0 => e.state = .closed
  | .iC1 => g.flags.syn = true ∧ g.flags.ack = true ∧ (e.state = .synSent ∨ e.state = .synAckReceived)
  | .iC2 => g.flags.ack = true ∧ e.state = .synAckReceived
  | .iC3 => g.flags.psh = true ∧ (e.state = .established ∨ e.state = .dataReceived)
  | .iC4 => g.flags.ack = true ∧ e.state = .finWait1
  | .iC5 => g.flags.fin = true
  | .iC6 => isBareAck g.flags = true
  | .rC1 => e.state = .listening ∧ g.flags.syn = true
  | .rC1a => e.state = .synReceived ∧ g.flags.ack = true
  | .rC2 => g.flags.psh = true ∧ (e.state = .established ∨ e.state = .dataReceived)
  | .rC3 => False
  | .rC4 => g.flags.fin = true ∧ (e.state = .established ∨ e.state = .dataReceived)
  | .rC6 => e.state = .lastAck ∧ g.flags.ack = true ∧ g.ack = e.sndSeq
  | .rC5 => e.finOwed = true
  | .iC7 | .rC7 => True

/-- The row that decides where a row's condition fails; R-C3, which never matches, stands in no list (R215). -/
def nextCase : RxCase → RxCase
  | .iC0 => .iC1
  | .iC1 => .iC2
  | .iC2 => .iC3
  | .iC3 => .iC4
  | .iC4 => .iC5
  | .iC5 => .iC6
  | .iC6 => .iC7
  | .rC1 => .rC1a
  | .rC1a => .rC2
  | .rC2 => .rC4
  | .rC3 => .rC4
  | .rC4 => .rC6
  | .rC6 => .rC5
  | .rC5 => .rC7
  | .iC7 => .iC7
  | .rC7 => .rC7

/-- A row whose condition fails leaves the segment to the row after it (R15). -/
theorem caseRow_of_not_condition (p : Params) {e : Seq} {g : Segment} {c : RxCase} (h : ¬ caseCondition e g c) :
    caseRow c p e g = caseRow (nextCase c) p e g := by
  cases c with
  | iC0 | iC5 | iC6 | rC1 | rC1a | rC6 | rC5 => exact if_neg h
  | iC1 => exact if_neg fun ⟨⟨hsyn, hack⟩, hpre⟩ => h ⟨hsyn, hack, (preEst_iff _).mp hpre⟩
  | iC2 | iC4 => exact if_neg h
  | iC3 => exact if_neg fun ⟨hpsh, hest⟩ => h ⟨hpsh, (estLike_iff _).mp hest⟩
  | rC2 | rC4 => exact if_neg fun ⟨hest, hflag⟩ => h ⟨hflag, (estLike_iff _).mp hest⟩
  | rC3 | iC7 | rC7 => rfl

/-- The same for the instructions: only the sequencer's own values decide. -/
theorem exec_instr_of_not_condition {s : State} {n : Nat} {e : Seq} {g : Segment} {c : RxCase}
    (he : s.seqs[n]? = some e) (h : ¬ caseCondition e g c) :
    exec (c.instr n g) s = exec ((nextCase c).instr n g) s := by
  have hrole : caseRole (nextCase c) = caseRole c := by cases c <;> rfl
  rw [exec_instr, exec_instr, hrole]
  exact onSeqWithin_congr _ he (caseRow_of_not_condition s.par h)

/-! ### The opcode table's masks against the rules' conditions (R103, R111, R112) -/

/-- The flag condition of a row on a flag set. -/
def caseFlags (f : FlagSet) : RxCase → Bool
  | .iC1 => f.syn && f.ack
  | .iC2 | .iC4 | .rC1a | .rC6 => f.ack
  | .iC3 | .rC2 => f.psh
  | .iC5 | .rC4 => f.fin
  | .iC6 => isBareAck f
  | .rC1 => f.syn
  | .rC3 => false
  | .iC0 | .iC7 | .rC5 | .rC7 => true

/-- The masks read the six flags of an encoded flags field. -/
theorem rowFlagsMatch_flags9 (c : RxCase) (f : FlagSet) : rowFlagsMatch c (flags9 f) = caseFlags f c := by
  obtain ⟨urg, ack, psh, rst, syn, fin⟩ := f
  revert urg ack psh rst syn fin
  cases c <;> decide

/-- The flags of a field are its upper six bits. -/
theorem flags9_flagsOfField (v : BitVec 9) : flags9 (flagsOfField v) = v &&& 0x1F8 := by
  revert v
  decide

/-- No mask reads the padding (R103). -/
theorem rowFlagsMatch_eq_caseFlags (c : RxCase) (v : BitVec 9) :
    rowFlagsMatch c v = caseFlags (flagsOfField v) c := by
  have hmask : (0x1F8 : BitVec 9) &&& (rowMask c).1 = (rowMask c).1 := by cases c <;> rfl
  rw [← rowFlagsMatch_flags9, flags9_flagsOfField, rowFlagsMatch, rowFlagsMatch, BitVec.and_assoc, hmask]

/-- The opcode table's row matches exactly where the rule's condition holds. -/
theorem rowMatches_iff {e : Seq} {v : BitVec 9} {g : Segment} (c : RxCase) (hv : flagsOfField v = g.flags) :
    rowMatches e v g c = true ↔ caseCondition e g c := by
  rw [rowMatches, rowFlagsMatch_eq_caseFlags, hv]
  cases c <;> simp [caseFlags, rowStates, rowOther, caseCondition, and_assoc, and_comm, and_left_comm]

/-! ### The selected case performs the list (R100 (b)) -/

/-- Where every element that fails a test is worth what the next is, the head is worth what the first that passes is. -/
theorem apply_head_eq_apply_find {α β : Type} (f : α → β) (test : α → Bool) (next : α → α)
    (hnext : ∀ a, test a = false → f a = f (next a)) (a : α) (l : List α)
    (hchain : (a :: l).IsChain fun x y => next x = y) :
    f a = f (((a :: l).find? test).getD ((a :: l).getLast (List.cons_ne_nil a l))) := by
  induction l generalizing a with
  | nil => cases h : test a <;> simp [h]
  | cons b l ih =>
    obtain ⟨hab, hrest⟩ := List.isChain_cons_cons.mp hchain
    cases h : test a with
    | true => simp [h]
    | false =>
      have hskip : (a :: b :: l).find? test = (b :: l).find? test := List.find?_cons_of_neg (by simp [h])
      rw [hnext a h, hab, ih b hrest, hskip, List.getLast_cons_cons]

/-- The first row of a role's list. -/
def firstCase : Role → RxCase
  | .initiator => .iC0
  | .responder => .rC1

theorem caseRole_firstCase (role : Role) : caseRole (firstCase role) = role := by cases role <;> rfl

theorem lastRow_mem_rowsOf (role : Role) : lastRow role ∈ rowsOf role := by cases role <;> decide

/-- A selected case stands in the list of the sequencer's role. -/
theorem selectCase_mem_rowsOf (e : Seq) (v : BitVec 9) (g : Segment) : selectCase e v g ∈ rowsOf e.role := by
  rw [selectCase]
  cases hfind : (rowsOf e.role).find? (rowMatches e v g) with
  | none => exact lastRow_mem_rowsOf e.role
  | some c => exact List.mem_of_find?_eq_some hfind

theorem caseRole_of_mem_rowsOf {role : Role} : ∀ c ∈ rowsOf role, caseRole c = role := by cases role <;> decide

theorem rC3_notMem_rowsOf (role : Role) : .rC3 ∉ rowsOf role := by cases role <;> decide

theorem caseRole_selectCase (e : Seq) (v : BitVec 9) (g : Segment) : caseRole (selectCase e v g) = e.role :=
  caseRole_of_mem_rowsOf _ (selectCase_mem_rowsOf e v g)

/-- The dead case is never selected (R215). -/
theorem selectCase_ne_rC3 (e : Seq) (v : BitVec 9) (g : Segment) : selectCase e v g ≠ .rC3 := fun h =>
  rC3_notMem_rowsOf e.role (h ▸ selectCase_mem_rowsOf e v g)

/-- The case that the opcode table selects does what the whole list does. -/
theorem caseRow_selectCase (p : Params) {e : Seq} {v : BitVec 9} {g : Segment} (hv : flagsOfField v = g.flags) :
    caseRow (firstCase e.role) p e g = caseRow (selectCase e v g) p e g := by
  have hnext (c : RxCase) (hc : rowMatches e v g c = false) :
      caseRow c p e g = caseRow (nextCase c) p e g :=
    caseRow_of_not_condition p fun h => by simp [(rowMatches_iff c hv).mpr h] at hc
  rw [selectCase]
  cases e.role with
  | initiator => exact apply_head_eq_apply_find (caseRow · p e g) _ nextCase hnext .iC0 _ (by decide)
  | responder => exact apply_head_eq_apply_find (caseRow · p e g) _ nextCase hnext .rC1 _ (by decide)

/-- The receive operation of a role is its list from the first row on (R176, R211). -/
theorem exec_recvInstr_of_codecDecode {w : Wire} {g : Segment} (role : Role) (n : Nat) (s : State)
    (h : codecDecode w = some g) : exec (recvInstr n w role) s = exec ((firstCase role).instr n g) s := by
  cases role with
  | initiator => exact exec_iRecv_of_codecDecode n s h
  | responder => exact exec_rRecv_of_codecDecode n s h

/-- The instruction decoded from a wire at an existing sequencer does what its receive operation does (R100 (b)). -/
theorem exec_decodeReceive {s : State} {seqs : List Seq} {n : Nat} {e : Seq} (w : Wire)
    (hseqs : seqs[n]? = some e) (he : s.seqs[n]? = some e) :
    exec (decodeReceive seqs n w) s = exec (recvInstr n w e.role) s := by
  by_cases hlen : w.length < 160
  · simp only [decodeReceive, hseqs, codecDecode_of_short hlen]
  · have hdec := codecDecode_of_long (Nat.le_of_not_lt hlen)
    have hflags := decodeFields_flags w (by omega)
    simp only [decodeReceive, hseqs, hdec]
    rw [exec_recvInstr_of_codecDecode e.role n s hdec, exec_instr, exec_instr, caseRole_selectCase,
      caseRole_firstCase]
    exact onSeqWithin_congr _ he (caseRow_selectCase s.par hflags.symm).symm

/-- Settles O42: the wire's own flags field selects the case, and the case performs the list. -/
theorem receiveInterfaceIsReceiveOperation : Obligations.ReceiveInterfaceIsReceiveOperation := by
  intro s n e w rest hhandover hdraining hinbox he
  have hstep : step s = exec (decodeReceive s.seqs n w) { s with inbox := rest } := by
    simp only [step, hhandover, hdraining, stepRequest, hinbox, decodeRequest, inboxAfter]
    rfl
  rw [hstep]
  exact exec_decodeReceive w he he

/-- Settles O27: the fall of each row, as instructions. -/
theorem dispatchRowFallsToTheNext : Obligations.DispatchRowFallsToTheNext := by
  intro s n e g he
  have hfall (c : RxCase) (h : ¬ caseCondition e g c) := exec_instr_of_not_condition (g := g) he h
  have hbare (h : flags9 g.flags &&& 0x1F8 ≠ 0x080) : ¬ caseCondition e g .iC6 := fun hb => by
    rw [caseCondition, isBareAck_eq_mask] at hb
    exact h (by simpa [rowFlagsMatch, rowMask] using hb)
  exact ⟨hfall .iC0, hfall .iC1, hfall .iC2, hfall .iC3, hfall .iC4,
    fun h => hfall .iC5 (by simp [caseCondition, h]), fun h => hfall .iC6 (hbare h), hfall .rC1, hfall .rC1a,
    hfall .rC2, hfall .rC4, hfall .rC6, fun h => hfall .rC5 (by simp [caseCondition, h])⟩

/-- A dispatch instruction at a sequencer of its role, with a payload within `PAYLOAD_MAX`, writes its row's result. -/
theorem exec_instr_of_sequencerAt {s : State} {n : Nat} {e : Seq} {g : Segment} (c : RxCase)
    (hat : sequencerAt s n (caseRole c) e) (hmax : withinMax s g.payload.length) :
    exec (c.instr n g) s = .next (s.commit n (caseRow c s.par e g)) := by
  obtain ⟨he, hrole, hown⟩ := hat
  rw [exec_instr, hmax, onSeqWithin_false, onSeq_eq he hrole hown]

/-- Settles O24: R-C3 is in no list, and as a row it is R-C4. -/
theorem deadCaseNeverMatches : Obligations.DeadCaseNeverMatches := by
  refine ⟨selectCase_ne_rC3, fun s n e g hat hmax => ⟨rfl, ?_⟩⟩
  exact ⟨_, exec_instr_of_sequencerAt .rC3 hat hmax⟩

/-- The flags field of an encoded record stands at its wire position (R101). -/
theorem wireFlags9_codecEncode (g : Segment) : wireFlags9 (codecEncode g) = flags9 g.flags := by
  simp [wireFlags9, codecEncode, encodeHeader, memRead_append_right]

/-- Settles O46: the record is read back from its wire, and with it the case its flags select. -/
theorem dispatchFormsRoundTrip : Obligations.DispatchFormsRoundTrip := by
  intro b seqs n e g c he hselect
  have hencode : encode b (c.instr n g) = .receive n (codecEncode g) := by cases c <;> rfl
  rw [hencode]
  simp only [decodeRequest, decodeReceive, he, codecDecode_codecEncode, wireFlags9_codecEncode, hselect]

end Sys2Proof.Proofs

/-! PROOF. What each dispatch case does at its own row and through the receive operation: a row whose condition holds
performs its case's action, and the list reaches a row that no earlier row keeps from the segment (30_encoding.md R111,
R112); then the operations outside a sequencer's role, labels and bounds (R110, R223, R271, R289). -/

namespace Sys2Proof.Proofs

open Sys2Proof Sys2Proof.Machine Sys2Proof.Laws

/-! ### A case's action -/

/-- The action of a dispatch case (R180 to R187, R212 to R219); the dead case R-C3 has none. -/
def caseAct : RxCase → Params → Seq → Segment → SeqResult
  | .iC1 => actIC1
  | .iC2 => fun _ e _ => actIC2 e
  | .iC3 => actIC3
  | .iC4 => fun _ e _ => actIC4 e
  | .iC5 => actIC5
  | .iC6 => actIC6
  | .rC1 => actRC1
  | .rC1a => fun _ e _ => actRC1a e
  | .rC2 => actRC2
  | .rC4 => actRC4
  | .rC6 => fun _ e _ => actRC6 e
  | .rC5 => actRC5
  | .iC0 | .iC7 | .rC3 | .rC7 => fun _ e _ => done e []

/-- A row whose condition holds performs its case's action. -/
theorem caseRow_of_condition (p : Params) {e : Seq} {g : Segment} {c : RxCase} (h : caseCondition e g c) :
    caseRow c p e g = caseAct c p e g := by
  cases c with
  | iC0 | iC2 | iC4 | iC5 | iC6 | rC1 | rC1a | rC6 | rC5 => exact if_pos h
  | iC1 =>
    obtain ⟨hsyn, hack, hstate⟩ := h
    exact if_pos ⟨⟨hsyn, hack⟩, (preEst_iff _).mpr hstate⟩
  | iC3 => exact if_pos ⟨h.1, (estLike_iff _).mpr h.2⟩
  | rC2 | rC4 => exact if_pos ⟨(estLike_iff _).mpr h.2, h.1⟩
  | rC3 => exact h.elim
  | iC7 | rC7 => rfl

theorem actIC5_eq (p : Params) (e : Seq) (g : Segment) :
    actIC5 p e g = addressed g.srcPort e (done { e with rcvAck := g.seq + 1, state := .timeWait }
      [builtOut p e flagsAck g.srcPort e.sndSeq (g.seq + 1) []]) := rfl

/-- Under the default `BARE_ACK_UPDATE` a bare ACK leaves the sequencer as it is (R186). -/
theorem actIC6_identity {p : Params} (e : Seq) (g : Segment) (h : p.bareAck = .identity) :
    actIC6 p e g = done e [] := by
  simp only [actIC6, bareAckUpdate, h]

theorem actIC6_unspecified {p : Params} (e : Seq) (g : Segment) (h : p.bareAck = .unspecified) :
    actIC6 p e g = done { e with rcvAck := Config.bareAckUpdate e.rcvAck g } [] := by
  simp only [actIC6, bareAckUpdate, h]

theorem actRC4_lazy {p : Params} (e : Seq) (g : Segment) (h : p.finPolicy = .lazy) :
    actRC4 p e g = addressed g.srcPort e
      (done { e with rcvAck := g.seq + 1, state := .closeWait, finOwed := true }
        [builtOut p e flagsAck g.srcPort e.sndSeq (g.seq + 1) []]) := by
  simp only [actRC4, h]
  rfl

theorem actRC4_eager {p : Params} (e : Seq) (g : Segment) (h : p.finPolicy = .eager) :
    actRC4 p e g = addressed g.srcPort e
      (done { e with rcvAck := g.seq + 1, sndSeq := e.sndSeq + 1, state := .lastAck, finOwed := false }
        [builtOut p e flagsAck g.srcPort e.sndSeq (g.seq + 1) [],
         builtOut p e flagsFin g.srcPort e.sndSeq (g.seq + 1) []]) := by
  simp only [actRC4, h]
  rfl

theorem actRC5_eq (p : Params) (e : Seq) (g : Segment) :
    actRC5 p e g = addressed g.srcPort e (done { e with sndSeq := e.sndSeq + 1, state := .lastAck, finOwed := false }
      [builtOut p e flagsFin g.srcPort e.sndSeq e.rcvAck []]) := rfl

/-! ### Which row the list reaches -/

/-- No row before I-C5 takes the segment, so the list reaches it. -/
theorem caseRow_iC0_of_not_takenBefore (p : Params) {e : Seq} {g : Segment} (h : ¬ takenBeforeIC5 e g) :
    caseRow .iC0 p e g = caseRow .iC5 p e g := by
  simp only [takenBeforeIC5, not_or] at h
  obtain ⟨h0, h1, h2, h3, h4⟩ := h
  calc caseRow .iC0 p e g
    _ = caseRow .iC1 p e g := caseRow_of_not_condition p h0
    _ = caseRow .iC2 p e g := caseRow_of_not_condition p h1
    _ = caseRow .iC3 p e g := caseRow_of_not_condition p h2
    _ = caseRow .iC4 p e g := caseRow_of_not_condition p h3
    _ = caseRow .iC5 p e g := caseRow_of_not_condition p h4

/-- No row before R-C5 takes the segment, so the list reaches it. -/
theorem caseRow_rC1_of_not_takenBefore (p : Params) {e : Seq} {g : Segment} (h : ¬ takenBeforeRC5 e g) :
    caseRow .rC1 p e g = caseRow .rC5 p e g := by
  simp only [takenBeforeRC5, not_or] at h
  obtain ⟨h1, h1a, hest, h6⟩ := h
  have h2 : ¬ caseCondition e g .rC2 := fun ⟨hpsh, hstate⟩ => hest ⟨hstate, .inl hpsh⟩
  have h4 : ¬ caseCondition e g .rC4 := fun ⟨hfin, hstate⟩ => hest ⟨hstate, .inr hfin⟩
  calc caseRow .rC1 p e g
    _ = caseRow .rC1a p e g := caseRow_of_not_condition p h1
    _ = caseRow .rC2 p e g := caseRow_of_not_condition p h1a
    _ = caseRow .rC4 p e g := caseRow_of_not_condition p h2
    _ = caseRow .rC6 p e g := caseRow_of_not_condition p h4
    _ = caseRow .rC5 p e g := caseRow_of_not_condition p h6

/-- In SYN-ACK-RECEIVED a segment with ACK and without SYN goes to I-C2. -/
theorem caseRow_iC0_of_synAckReceived (p : Params) {e : Seq} {g : Segment} (hstate : e.state = .synAckReceived)
    (hsyn : g.flags.syn = false) : caseRow .iC0 p e g = caseRow .iC2 p e g := by
  have h0 : ¬ caseCondition e g .iC0 := by simp [caseCondition, hstate]
  have h1 : ¬ caseCondition e g .iC1 := by simp [caseCondition, hsyn]
  exact (caseRow_of_not_condition p h0).trans (caseRow_of_not_condition p h1)

/-- In FIN-WAIT-1 no row before I-C4 has its label. -/
theorem caseRow_iC0_of_finWait1 (p : Params) {e : Seq} (g : Segment) (hstate : e.state = .finWait1) :
    caseRow .iC0 p e g = caseRow .iC4 p e g := by
  calc caseRow .iC0 p e g
    _ = caseRow .iC1 p e g := caseRow_of_not_condition p (by simp [caseCondition, hstate])
    _ = caseRow .iC2 p e g := caseRow_of_not_condition p (by simp [caseCondition, hstate])
    _ = caseRow .iC3 p e g := caseRow_of_not_condition p (by simp [caseCondition, hstate])
    _ = caseRow .iC4 p e g := caseRow_of_not_condition p (by simp [caseCondition, hstate])

/-- In SYN-RECEIVED the list reaches R-C1a. -/
theorem caseRow_rC1_of_synReceived (p : Params) {e : Seq} (g : Segment) (hstate : e.state = .synReceived) :
    caseRow .rC1 p e g = caseRow .rC1a p e g :=
  caseRow_of_not_condition p (by simp [caseCondition, hstate])

/-- In ESTABLISHED and DATA-RECEIVED a segment without PSH goes to R-C4. -/
theorem caseRow_rC1_of_estLike (p : Params) {e : Seq} {g : Segment}
    (hstate : e.state = .established ∨ e.state = .dataReceived) (hpsh : g.flags.psh = false) :
    caseRow .rC1 p e g = caseRow .rC4 p e g := by
  have h2 : ¬ caseCondition e g .rC2 := by simp [caseCondition, hpsh]
  exact (rowRC1_of_estLike p g ((estLike_iff _).mpr hstate)).trans (caseRow_of_not_condition p h2)

/-- In LAST-ACK no row before R-C6 has its label. -/
theorem caseRow_rC1_of_lastAck (p : Params) {e : Seq} (g : Segment) (hstate : e.state = .lastAck) :
    caseRow .rC1 p e g = caseRow .rC6 p e g := by
  calc caseRow .rC1 p e g
    _ = caseRow .rC1a p e g := caseRow_of_not_condition p (by simp [caseCondition, hstate])
    _ = caseRow .rC2 p e g := caseRow_of_not_condition p (by simp [caseCondition, hstate])
    _ = caseRow .rC4 p e g := caseRow_of_not_condition p (by simp [caseCondition, hstate])
    _ = caseRow .rC6 p e g := caseRow_of_not_condition p (by simp [caseCondition, hstate])

/-! ### A row as an instruction and as the receive operation -/

section CaseRow

variable {s : State} {n : Nat} {e e' : Seq} {g : Segment} {c : RxCase} {tx : List DeliveryRecord}

/-- The receive operation of a wire whose segment reaches a row is that row's instruction. -/
theorem exec_recvInstr_of_reaches {w : Wire} (hw : codecDecode w = some g) (he : s.seqs[n]? = some e)
    (hreach : caseRow (firstCase (caseRole c)) s.par e g = caseRow c s.par e g) :
    exec (recvInstr n w (caseRole c)) s = exec (c.instr n g) s := by
  rw [exec_recvInstr_of_codecDecode _ n s hw, exec_instr, exec_instr, caseRole_firstCase]
  exact onSeqWithin_congr _ he hreach

/-- A row that writes and emits without a check (R13). -/
theorem exec_instr_of_done (hat : sequencerAt s n (caseRole c) e) (hmax : withinMax s g.payload.length)
    (hrow : caseRow c s.par e g = done e' tx) : exec (c.instr n g) s = .next (afterStep s n e' tx) := by
  rw [exec_instr_of_sequencerAt c hat hmax, hrow, commit_done]

/-- A row that does nothing leaves all but the answer as it was. -/
theorem exec_instr_of_inert (hat : sequencerAt s n (caseRole c) e) (hmax : withinMax s g.payload.length)
    (hrow : caseRow c s.par e g = done e []) : exec (c.instr n g) s = .next (afterStatus s .ok) := by
  rw [exec_instr_of_sequencerAt c hat hmax, hrow]
  exact congrArg _ (commit_raise hat.1 .ok)

/-- A row behind the unaddressed check: its step from a nonzero source port, the error from port 0 (R178). -/
theorem exec_instr_of_addressed (hat : sequencerAt s n (caseRole c) e) (hmax : withinMax s g.payload.length)
    (hrow : caseRow c s.par e g = addressed g.srcPort e (done e' tx)) :
    (g.srcPort ≠ 0 → exec (c.instr n g) s = .next (afterStep s n e' tx)) ∧
    (g.srcPort = 0 → exec (c.instr n g) s = .next (afterStatus s .unaddressedSegment)) := by
  refine ⟨fun hport => ?_, fun hport => ?_⟩
  · exact exec_instr_of_done hat hmax (hrow.trans (addressed_of_ne_zero _ e _ hport))
  · rw [exec_instr_of_sequencerAt c hat hmax, hrow, hport, addressed_zero, commit_raise hat.1]

end CaseRow

/-- Settles O16: the actions of the three cases are `done e []`; the last rows are reached past all
others. -/
theorem inertCases : Obligations.InertCases := by
  intro s n e g hmax
  refine ⟨fun hat hclosed => ?_, fun hat => ?_, fun hat => ?_⟩
  · have hexec : exec (.iC0 n g) s = .next (afterStatus s .ok) :=
      exec_instr_of_inert (c := .iC0) hat hmax (caseRow_of_condition s.par hclosed)
    exact ⟨hexec, fun w hw => (exec_recvInstr_of_reaches (c := .iC0) hw hat.1 rfl).trans hexec⟩
  · have hexec : exec (.iC7 n g) s = .next (afterStatus s .ok) := exec_instr_of_inert (c := .iC7) hat hmax rfl
    refine ⟨hexec, fun hnot hfin hbare w hw => ?_⟩
    have h5 : ¬ caseCondition e g .iC5 := by simp [caseCondition, hfin]
    have h6 : ¬ caseCondition e g .iC6 := by
      simpa [caseCondition, isBareAck_eq_mask, rowFlagsMatch, rowMask] using hbare
    have hreach : caseRow .iC0 s.par e g = caseRow .iC7 s.par e g :=
      (caseRow_iC0_of_not_takenBefore s.par hnot).trans
        ((caseRow_of_not_condition s.par h5).trans (caseRow_of_not_condition s.par h6))
    exact (exec_recvInstr_of_reaches (c := .iC7) hw hat.1 hreach).trans hexec
  · have hexec : exec (.rC7 n g) s = .next (afterStatus s .ok) := exec_instr_of_inert (c := .rC7) hat hmax rfl
    refine ⟨hexec, fun hnot howed w hw => ?_⟩
    have h5 : ¬ caseCondition e g .rC5 := by simp [caseCondition, howed]
    have hreach : caseRow .rC1 s.par e g = caseRow .rC7 s.par e g :=
      (caseRow_rC1_of_not_takenBefore s.par hnot).trans (caseRow_of_not_condition s.par h5)
    exact (exec_recvInstr_of_reaches (c := .rC7) hw hat.1 hreach).trans hexec

/-- Settles O17: each case's action writes `state` alone, and the label decides that the list reaches it. -/
theorem stateOnlyCases : Obligations.StateOnlyCases := by
  intro s n e g hmax hack
  refine ⟨fun hat hstate => ⟨?_, fun hsyn w hw => ?_⟩, fun hat hstate => ⟨?_, fun w hw => ?_⟩,
    fun hat hstate => ⟨?_, fun w hw => ?_⟩, fun hat hstate hno => ⟨?_, fun w hw => ?_⟩⟩
  · exact exec_instr_of_done (c := .iC2) hat hmax (caseRow_of_condition s.par ⟨hack, hstate⟩)
  · exact exec_recvInstr_of_reaches (c := .iC2) hw hat.1 (caseRow_iC0_of_synAckReceived s.par hstate hsyn)
  · exact exec_instr_of_done (c := .iC4) hat hmax (caseRow_of_condition s.par ⟨hack, hstate⟩)
  · exact exec_recvInstr_of_reaches (c := .iC4) hw hat.1 (caseRow_iC0_of_finWait1 s.par g hstate)
  · exact exec_instr_of_done (c := .rC1a) hat hmax (caseRow_of_condition s.par ⟨hstate, hack⟩)
  · exact exec_recvInstr_of_reaches (c := .rC1a) hw hat.1 (caseRow_rC1_of_synReceived s.par g hstate)
  · exact exec_instr_of_done (c := .rC6) hat hmax (caseRow_of_condition s.par ⟨hstate, hack, hno⟩)
  · exact exec_recvInstr_of_reaches (c := .rC6) hw hat.1 (caseRow_rC1_of_lastAck s.par g hstate)

/-- Settles O20: the action of I-C5 behind the unaddressed check. -/
theorem finAtInitiator : Obligations.FinAtInitiator := by
  intro s n e g hat hmax hfin
  have hrow := (caseRow_of_condition (c := .iC5) s.par hfin).trans (actIC5_eq s.par e g)
  obtain ⟨hstep, hraise⟩ := exec_instr_of_addressed (c := .iC5) hat hmax hrow
  exact ⟨hstep, hraise, fun hnot w hw =>
    exec_recvInstr_of_reaches (c := .iC5) hw hat.1 (caseRow_iC0_of_not_takenBefore s.par hnot)⟩

/-- Settles O21: the action of I-C6 under either `BARE_ACK_UPDATE`; a bare ACK has no FIN, so I-C5 lets it pass. -/
theorem bareAckAtInitiator : Obligations.BareAckAtInitiator := by
  intro s n e g hat hmax hflags
  have hbare : caseCondition e g .iC6 := by simp [caseCondition, hflags, isBareAck]
  have hfin : ¬ caseCondition e g .iC5 := by simp [caseCondition, hflags]
  have hrow := caseRow_of_condition s.par hbare
  refine ⟨fun hid => ?_, fun hfree => ?_, fun hnot w hw => ?_⟩
  · exact exec_instr_of_inert (c := .iC6) hat hmax (hrow.trans (actIC6_identity e g hid))
  · exact exec_instr_of_done (c := .iC6) hat hmax (hrow.trans (actIC6_unspecified e g hfree))
  · exact exec_recvInstr_of_reaches (c := .iC6) hw hat.1
      ((caseRow_iC0_of_not_takenBefore s.par hnot).trans (caseRow_of_not_condition s.par hfin))

/-- Settles O25: the action of R-C4 under either `FIN_POLICY`, behind the unaddressed check. -/
theorem finAtResponder : Obligations.FinAtResponder := by
  intro s n e g hat hmax hfin hstate
  have hrow := caseRow_of_condition (c := .rC4) (e := e) (g := g) s.par ⟨hfin, hstate⟩
  refine ⟨fun hlazy => ?_, fun heager => ?_, ?_, fun hpsh w hw => ?_⟩
  · exact (exec_instr_of_addressed (c := .rC4) hat hmax (hrow.trans (actRC4_lazy e g hlazy))).1
  · exact (exec_instr_of_addressed (c := .rC4) hat hmax (hrow.trans (actRC4_eager e g heager))).1
  · cases hpolicy : s.par.finPolicy with
    | lazy => exact (exec_instr_of_addressed (c := .rC4) hat hmax (hrow.trans (actRC4_lazy e g hpolicy))).2
    | eager => exact (exec_instr_of_addressed (c := .rC4) hat hmax (hrow.trans (actRC4_eager e g hpolicy))).2
  · exact exec_recvInstr_of_reaches (c := .rC4) hw hat.1 (caseRow_rC1_of_estLike s.par hstate hpsh)

/-- Settles O26: the action of R-C5 behind the unaddressed check. -/
theorem owedFin : Obligations.OwedFin := by
  intro s n e g hat hmax howed
  have hrow := (caseRow_of_condition (c := .rC5) (g := g) s.par howed).trans (actRC5_eq s.par e g)
  obtain ⟨hstep, hraise⟩ := exec_instr_of_addressed (c := .rC5) hat hmax hrow
  exact ⟨hstep, hraise, fun hnot w hw =>
    exec_recvInstr_of_reaches (c := .rC5) hw hat.1 (caseRow_rC1_of_not_takenBefore s.par hnot)⟩

/-! ### I.SEND (R173) -/

theorem exec_iSend (n : Nat) (dst : Port) (payload : List Byte) (s : State) :
    exec (.iSend n dst payload) s =
      onSeqWithin (overLimit s.par.payloadMax payload.length) .initiator n (sendStep s.par dst payload) s := rfl

theorem sendStep_of_estLike (p : Params) (dst : Port) (payload : List Byte) {e : Seq} (h : estLike e.state = true) :
    sendStep p dst payload e =
      addressed dst e (done { e with sndSeq := e.sndSeq + BitVec.ofNat 32 payload.length }
        [builtOut p e flagsPshAck dst e.sndSeq e.rcvAck payload]) := if_pos h

theorem sendStep_of_not_estLike (p : Params) (dst : Port) (payload : List Byte) {e : Seq}
    (h : ¬ estLike e.state = true) : sendStep p dst payload e = raise .notEstablished e := if_neg h

/-- Settles O11: the payload bound first, then the two labels of `estLike`, then the port. -/
theorem sendCommand : Obligations.SendCommand := by
  refine ⟨fun s n dst payload hover => ?_, fun s n e dst payload hat hmax => ?_⟩
  · rw [exec_iSend, Bool.of_not_eq_false hover, onSeqWithin_true]
  · rw [exec_iSend, hmax, onSeqWithin_false, ← estLike_iff]
    refine ⟨fun hest => ?_, fun hne hnd => ?_, fun hest => ?_⟩
    · exact onSeq_of_addressed hat (sendStep_of_estLike s.par dst payload hest)
    · have hest : ¬ estLike e.state = true := by simp [estLike_iff, hne, hnd]
      exact onSeq_of_raise hat (sendStep_of_not_estLike s.par dst payload hest)
    · exact onSeq_of_unaddressed hat (sendStep_of_estLike s.par dst payload hest)

/-! ### Outside the role, the labels and the bounds of a sequencer -/

section Outside

variable {s : State} {n : Nat} {role : Role} {e : Seq} {f : Seq → SeqResult}

theorem onSeq_of_missing (h : s.seqs[n]? = none) : onSeq role n f s = .refused .noSuchInstance := by
  simp only [onSeq, h]

/-- A label of the other role is no label to step from (R223, log entry 10). -/
theorem onSeq_of_foreign (he : s.seqs[n]? = some e) (hrole : e.role = role) (hown : ownState role e.state = false) :
    onSeq role n f s = .refused .foreignState := by
  subst hrole
  simp [onSeq, he, hown]

end Outside

/-- Settles O14: the role is tested before anything else, the payload bound apart. -/
theorem otherRoleAnswersInvalidState : Obligations.OtherRoleAnswersInvalidState := by
  intro s n e dst payload w he hmax hwire
  refine ⟨fun hrole => ?_, fun hrole => ?_⟩
  · have hother : e.role ≠ .initiator := by simp [hrole]
    rw [exec_iOpen, exec_iSend, exec_iClose, exec_iExpire, exec_iRecv, hmax, hwire, onSeqWithin_false,
      onSeqWithin_false]
    exact ⟨onSeq_otherRole he hother, onSeq_otherRole he hother, onSeq_otherRole he hother,
      onSeq_otherRole he hother, onSeq_otherRole he hother⟩
  · have hother : e.role ≠ .responder := by simp [hrole]
    rw [exec_rRecv, hwire, onSeqWithin_false]
    exact onSeq_otherRole he hother

/-- Settles O30: a missing sequencer first, then the label against the role. -/
theorem outsideTheInterfaceIsRefused : Obligations.OutsideTheInterfaceIsRefused := by
  intro s n dst payload w hmax hwire
  rw [exec_iOpen, exec_iSend, exec_iClose, exec_iExpire, exec_iRecv, exec_rRecv, hmax, hwire]
  simp only [onSeqWithin_false]
  refine ⟨fun e he hrole hstate => ?_, fun e he hrole hstate => ?_, fun hnone => ?_⟩
  · have hown : ownState .responder e.state = false := by
      rcases hstate with h | h | h | h | h <;> rw [h] <;> rfl
    exact onSeq_of_foreign he hrole hown
  · have hown : ownState .initiator e.state = false := by
      rcases hstate with h | h | h | h <;> rw [h] <;> rfl
    exact ⟨onSeq_of_foreign he hrole hown, onSeq_of_foreign he hrole hown, onSeq_of_foreign he hrole hown,
      onSeq_of_foreign he hrole hown, onSeq_of_foreign he hrole hown⟩
  · have hreg (role : Role) (s' : State) : registrable role n s s' = .refused .noSuchInstance := by
      simp only [registrable, hnone]
    exact ⟨onSeq_of_missing hnone, onSeq_of_missing hnone, onSeq_of_missing hnone, onSeq_of_missing hnone,
      onSeq_of_missing hnone, onSeq_of_missing hnone, hreg .initiator _, hreg .responder _⟩

/-- The receive operation of a role, as an operation on one sequencer. -/
theorem exec_recvInstr (n : Nat) (w : Wire) (role : Role) (s : State) :
    exec (recvInstr n w role) s = onSeqWithin (wireOverMax s.par w) role n (receiveOf role s.par w) s := by
  cases role <;> rfl

/-- The length test of the receive operations (R176, R211). -/
theorem receiveOf_of_short (role : Role) (p : Params) {w : Wire} (e : Seq) (h : w.length < 160) :
    receiveOf role p w e = raise .malformedSegment e := by
  have hdec := codecDecode_of_short h
  cases role with
  | initiator => simp only [receiveOf, initiatorReceive, hdec]
  | responder => simp only [receiveOf, responderReceive, hdec]

/-- Settles O28: a short wire has no payload to be over the bound, and the length test raises. -/
theorem shortWireIsMalformed : Obligations.ShortWireIsMalformed := by
  intro s n role e w hat hshort
  rw [exec_recvInstr, wireOverMax_of_short s.par hshort, onSeqWithin_false]
  exact onSeq_of_raise hat (receiveOf_of_short role s.par e hshort)

/-- Settles O29: the receive operation is the first row's instruction; a payload over the bound is refused before the
sequencer is looked at. -/
theorem receivePerformsTheList : Obligations.ReceivePerformsTheList := by
  intro s n w g hw
  refine ⟨fun hmax => ⟨fun e hat => ?_, fun e hat => ?_⟩, fun hover => ?_⟩
  · have hexec := exec_instr_of_sequencerAt .iC0 hat hmax
    exact ⟨_, (exec_recvInstr_of_codecDecode .initiator n s hw).trans hexec, hexec⟩
  · have hexec := exec_instr_of_sequencerAt .rC1 hat hmax
    exact ⟨_, (exec_recvInstr_of_codecDecode .responder n s hw).trans hexec, hexec⟩
  · have hrow (c : RxCase) : exec (c.instr n g) s = .refused .payloadOverMax := by
      rw [exec_instr, Bool.of_not_eq_false hover, onSeqWithin_true]
    exact ⟨(exec_recvInstr_of_codecDecode .initiator n s hw).trans (hrow .iC0),
      (exec_recvInstr_of_codecDecode .responder n s hw).trans (hrow .rC1), hrow⟩

end Sys2Proof.Proofs

/-! PROOF. What an instruction can do, said once: which step functions run at a sequencer, what one delivery leaves, and
what `exec` and `step` can answer with a next state. From these the frames: the constants (10_state.md R48), the
addressed sequencer (20_memory.md R83), the link's state (10_state.md R55), and an Initiator's `snd_seq`
(41_initiator.md R189). -/

namespace Sys2Proof.Proofs

open Sys2Proof Sys2Proof.Machine Sys2Proof.Laws

/-! ### What `exec` can answer -/

/-- The step functions an instruction can run at a sequencer of a role: a command, the receive operation (of I.RECV,
R.RECV, or of a delivery), or a dispatch row. -/
inductive RunsStep (p : Params) (i : Instr) : Role → (Seq → SeqResult) → Prop
  | openCommand {n dst} (hi : i = .iOpen n dst) : RunsStep p i .initiator (openStep p dst)
  | sendCommand {n dst payload} (hi : i = .iSend n dst payload) : RunsStep p i .initiator (sendStep p dst payload)
  | closeCommand {n dst} (hi : i = .iClose n dst) : RunsStep p i .initiator (closeStep p dst)
  | expireCommand {n} (hi : i = .iExpire n) : RunsStep p i .initiator expireStep
  | receive (role : Role) (w : Wire) : RunsStep p i role (receiveOf role p w)
  | row {n g} (c : RxCase) (hi : i = c.instr n g) : RunsStep p i (caseRole c) fun e => caseRow c p e g

/-- What one delivery leaves (R244): the record is dropped, or its owner has received it. -/
inductive DeliveryEffect (s : State) : State → Prop
  | dropped {r rest} (hq : s.q = r :: rest) : DeliveryEffect s { s with q := rest }
  | received {r rest n e} (hq : s.q = r :: rest) (howner : route s r.dstPort = some (e.role, n))
      (he : s.seqs[n]? = some e) (hown : ownState e.role e.state = true) :
      DeliveryEffect s { s with
        seqs := s.seqs.set n (receiveOf e.role s.par r.wire e).seq
        q := rest ++ (receiveOf e.role s.par r.wire e).tx }

/-- What an instruction can answer with a next state: a bare answer, a step of one sequencer, or an operation of the
link. -/
inductive ExecEffect (i : Instr) (s : State) : State → Prop
  | answered (hi : i ≠ .nDrain) (r : Response) : ExecEffect i s { s with resp := r }
  | stepped {n e f} (hlink : isLinkOp i = false) (htouched : touched s i = some n) (he : s.seqs[n]? = some e)
      (hown : ownState e.role e.state = true) (hrun : RunsStep s.par i e.role f) : ExecEffect i s (s.commit n (f e))
  | registeredInitiator {port n e} (hi : i = .nRegi port n) (he : s.seqs[n]? = some e) (hrole : e.role = .initiator) :
      ExecEffect i s (State.answer { s with itab := tableSet s.itab port n } .ok)
  | registeredResponder {port n e} (hi : i = .nRegr port n) (he : s.seqs[n]? = some e) (hrole : e.role = .responder) :
      ExecEffect i s (State.answer { s with rtab := tableSet s.rtab port n } .ok)
  | transmitted {w src dst} (hi : i = .nXmit w src dst) :
      ExecEffect i s (State.answer { s with q := s.q ++ [{ wire := w, srcPort := src, dstPort := dst }] } .ok)
  | delivered {s' st} (hi : i = .nDeliver) (hd : DeliveryEffect s s') : ExecEffect i s (s'.answer st)
  | drained {s' st} (hi : i = .nDrain) (hd : DeliveryEffect s s') :
      ExecEffect i s (State.answer { s' with draining := !s'.q.isEmpty } st)
  | drainEnded (hi : i = .nDrain) : ExecEffect i s (State.answer { s with draining := false } .ok)

/-- A delivery with a state after it took the head and dropped it or gave it to its owner. -/
theorem deliveryEffect_of_delivered {s s' : State} {st : Status} (h : deliverNext s = .delivered s' st) :
    DeliveryEffect s s' := by
  rcases deliverNext_cases s with ⟨_, h'⟩ | ⟨r, rest, hq, _, h'⟩ | ⟨r, rest, role, n, hq, howner, h'⟩ <;> rw [h'] at h
  · cases h
  · cases h
    exact .dropped hq
  · obtain ⟨e, he, rfl, _, hown, _, rfl, _⟩ := deliverTo_delivered h
    exact .received hq howner he hown

section Effect

variable {i : Instr} {s t : State}

theorem ne_nDrain_of_isLinkOp_eq_false (h : isLinkOp i = false) : i ≠ .nDrain := by
  rintro rfl
  cases h

theorem execEffect_of_execEncode {g : Segment} (h : execEncode g s = .next t) (hi : i ≠ .nDrain) :
    ExecEffect i s t := by
  rw [execEncode] at h
  split at h <;> cases h
  exact .answered hi _

theorem execEffect_of_answerDecode {w : Wire} (h : answerDecode w s = .next t) (hi : i ≠ .nDrain) :
    ExecEffect i s t := by
  rw [answerDecode] at h
  split at h <;> cases h
  cases codecDecode w <;> exact .answered hi _

/-- An operation on one sequencer answers InvalidState, or is its step (R110, R221). -/
theorem execEffect_of_onSeq {role : Role} {n : Nat} {f : Seq → SeqResult} (h : onSeq role n f s = .next t)
    (hlink : isLinkOp i = false) (htouched : touched s i = some n) (hrun : RunsStep s.par i role f) :
    ExecEffect i s t := by
  obtain ⟨e, he, ⟨_, rfl⟩ | ⟨rfl, hown, rfl⟩⟩ := onSeq_next h
  · exact .answered (ne_nDrain_of_isLinkOp_eq_false hlink) _
  · exact .stepped hlink htouched he hown hrun

theorem execEffect_of_onSeqWithin {tooLong : Bool} {role : Role} {n : Nat} {f : Seq → SeqResult}
    (h : onSeqWithin tooLong role n f s = .next t) (hlink : isLinkOp i = false) (htouched : touched s i = some n)
    (hrun : RunsStep s.par i role f) : ExecEffect i s t :=
  execEffect_of_onSeq (onSeqWithin_next h).2 hlink htouched hrun

theorem execEffect_of_instr {c : RxCase} {n : Nat} {g : Segment} (h : exec (c.instr n g) s = .next t) :
    ExecEffect (c.instr n g) s t := by
  have hlink : isLinkOp (c.instr n g) = false := by cases c <;> rfl
  have htouched : touched s (c.instr n g) = some n := by cases c <;> rfl
  rw [exec_instr] at h
  exact execEffect_of_onSeqWithin h hlink htouched (.row c rfl)

theorem execEffect_of_nDeliver (h : execNDeliver s = .next t) : ExecEffect .nDeliver s t := by
  cases hd : deliverNext s <;> simp only [execNDeliver, hd] at h <;> cases h
  · exact .answered (by decide) _
  · exact .delivered rfl (deliveryEffect_of_delivered hd)

theorem execEffect_of_nDrain (h : execNDrain s = .next t) : ExecEffect .nDrain s t := by
  cases hd : deliverNext s <;> simp only [execNDrain, hd] at h <;> cases h
  · exact .drainEnded rfl
  · exact .drained rfl (deliveryEffect_of_delivered hd)

/-- Every next state that an instruction answers is one of `ExecEffect`. -/
theorem execEffect_of_exec (h : exec i s = .next t) : ExecEffect i s t := by
  cases i with
  | encode g => exact execEffect_of_execEncode h nofun
  | decode w => exact execEffect_of_answerDecode h nofun
  | seg hdr tail => exact execEffect_of_answerDecode (w := wireOfSeg hdr tail) h nofun
  | segBuilt src dst sq ak f wi ck up pl =>
    exact execEffect_of_answerDecode (w := codecEncode (mkSeg src dst sq ak f wi ck up pl)) h nofun
  | iOpen n dst => exact execEffect_of_onSeq (exec_iOpen n dst s ▸ h) rfl rfl (.openCommand rfl)
  | iSend n dst pl => exact execEffect_of_onSeqWithin (exec_iSend n dst pl s ▸ h) rfl rfl (.sendCommand rfl)
  | iClose n dst => exact execEffect_of_onSeq (exec_iClose n dst s ▸ h) rfl rfl (.closeCommand rfl)
  | iExpire n => exact execEffect_of_onSeq (exec_iExpire n s ▸ h) rfl rfl (.expireCommand rfl)
  | iRecv n w => exact execEffect_of_onSeqWithin (exec_iRecv n w s ▸ h) rfl rfl (.receive .initiator w)
  | rRecv n w => exact execEffect_of_onSeqWithin (exec_rRecv n w s ▸ h) rfl rfl (.receive .responder w)
  | nRegi port n =>
    obtain ⟨rfl, e, he, hrole⟩ := registrable_next h
    exact .registeredInitiator rfl he hrole
  | nRegr port n =>
    obtain ⟨rfl, e, he, hrole⟩ := registrable_next h
    exact .registeredResponder rfl he hrole
  | nXmit w src dst =>
    obtain rfl := execNXmit_next h
    exact .transmitted rfl
  | nDeliver => exact execEffect_of_nDeliver h
  | nDrain => exact execEffect_of_nDrain h
  | reserved0 | reserved3 | reservedF =>
    cases h
    exact .answered (by decide) _
  | iC0 n g => exact execEffect_of_instr (c := .iC0) h
  | iC1 n g => exact execEffect_of_instr (c := .iC1) h
  | iC2 n g => exact execEffect_of_instr (c := .iC2) h
  | iC3 n g => exact execEffect_of_instr (c := .iC3) h
  | iC4 n g => exact execEffect_of_instr (c := .iC4) h
  | iC5 n g => exact execEffect_of_instr (c := .iC5) h
  | iC6 n g => exact execEffect_of_instr (c := .iC6) h
  | iC7 n g => exact execEffect_of_instr (c := .iC7) h
  | rC1 n g => exact execEffect_of_instr (c := .rC1) h
  | rC1a n g => exact execEffect_of_instr (c := .rC1a) h
  | rC2 n g => exact execEffect_of_instr (c := .rC2) h
  | rC3 n g => exact execEffect_of_instr (c := .rC3) h
  | rC4 n g => exact execEffect_of_instr (c := .rC4) h
  | rC6 n g => exact execEffect_of_instr (c := .rC6) h
  | rC5 n g => exact execEffect_of_instr (c := .rC5) h
  | rC7 n g => exact execEffect_of_instr (c := .rC7) h

/-- The sequencers after an instruction: as before, or the addressed one after a step function it ran (R83 (a)). -/
theorem seqs_of_execEffect (h : ExecEffect i s t) :
    t.seqs = s.seqs ∨ ∃ n e f, touched s i = some n ∧ s.seqs[n]? = some e ∧ RunsStep s.par i e.role f ∧
      t.seqs = s.seqs.set n (f e).seq := by
  cases h with
  | answered | registeredInitiator | registeredResponder | transmitted | drainEnded => exact .inl rfl
  | stepped hlink htouched he hown hrun => exact .inr ⟨_, _, _, htouched, he, hrun, rfl⟩
  | delivered hi hd | drained hi hd =>
    cases hd with
    | dropped hq => exact .inl rfl
    | received hq howner he hown =>
      refine .inr ⟨_, _, _, ?_, he, .receive _ _, rfl⟩
      rw [hi]
      simp only [touched, hq, List.head?_cons, Option.bind_some, howner, Option.map_some]

/-- The same at one sequencer. -/
theorem sequencer_of_execEffect {m : Nat} {e e' : Seq} (h : ExecEffect i s t) (he : s.seqs[m]? = some e)
    (he' : t.seqs[m]? = some e') :
    e' = e ∨ ∃ f, touched s i = some m ∧ RunsStep s.par i e.role f ∧ e' = (f e).seq := by
  rcases seqs_of_execEffect h with hseqs | ⟨n, d, f, htouched, hd, hrun, hseqs⟩
  · exact .inl (by simpa [hseqs, he] using he'.symm)
  · by_cases hn : n = m
    · subst hn
      obtain rfl : d = e := by simpa [hd] using he
      have hlt := (List.getElem?_eq_some_iff.mp hd).1
      exact .inr ⟨f, htouched, hrun, by simpa [hseqs, List.getElem?_set_self hlt] using he'.symm⟩
    · exact .inl (by simpa [hseqs, List.getElem?_set_ne hn, he] using he'.symm)

/-- The parameters and the inbox are read and never written. -/
theorem par_inbox_of_execEffect (h : ExecEffect i s t) : t.par = s.par ∧ t.inbox = s.inbox := by
  cases h with
  | answered | stepped | registeredInitiator | registeredResponder | transmitted | drainEnded => exact ⟨rfl, rfl⟩
  | delivered hi hd | drained hi hd => cases hd <;> exact ⟨rfl, rfl⟩

/-- The records that wait for their hand-over: as before, or followed by those of a sequencer's own step. -/
theorem handover_of_execEffect (h : ExecEffect i s t) :
    t.handover = s.handover ∨ isLinkOp i = false ∧ ∃ (n : Nat) (e : Seq) (f : Seq → SeqResult),
      s.seqs[n]? = some e ∧ RunsStep s.par i e.role f ∧ t.handover = s.handover ++ (f e).tx := by
  cases h with
  | answered | registeredInitiator | registeredResponder | transmitted | drainEnded => exact .inl rfl
  | stepped hlink htouched he hown hrun => exact .inr ⟨hlink, _, _, _, he, hrun, rfl⟩
  | delivered hi hd | drained hi hd => cases hd <;> exact .inl rfl

/-- Both tables as they were, or one of them with a registration of a sequencer of its role. -/
theorem tables_of_execEffect (h : ExecEffect i s t) :
    (t.itab = s.itab ∧ t.rtab = s.rtab) ∨
    ∃ (port : Port) (n : Nat) (e : Seq), s.seqs[n]? = some e ∧ isLinkOp i = true ∧
      ((e.role = .initiator ∧ t.itab = tableSet s.itab port n ∧ t.rtab = s.rtab) ∨
       (e.role = .responder ∧ t.itab = s.itab ∧ t.rtab = tableSet s.rtab port n)) := by
  cases h with
  | answered | stepped | transmitted | drainEnded => exact .inl ⟨rfl, rfl⟩
  | registeredInitiator hi he hrole => exact .inr ⟨_, _, _, he, by rw [hi]; rfl, .inl ⟨hrole, rfl, rfl⟩⟩
  | registeredResponder hi he hrole => exact .inr ⟨_, _, _, he, by rw [hi]; rfl, .inr ⟨hrole, rfl, rfl⟩⟩
  | delivered hi hd | drained hi hd => cases hd <;> exact .inl ⟨rfl, rfl⟩

/-- Only N.DRAIN writes whether a drain is under way, and sets it only with something left to deliver. -/
theorem draining_of_execEffect (h : ExecEffect i s t) :
    (i ≠ .nDrain → t.draining = s.draining) ∧ (i = .nDrain → t.draining = true → t.q ≠ []) := by
  cases h with
  | answered hi => exact ⟨fun _ => rfl, fun h => absurd h hi⟩
  | stepped hlink => exact ⟨fun _ => rfl, fun h => absurd h (ne_nDrain_of_isLinkOp_eq_false hlink)⟩
  | registeredInitiator hi | registeredResponder hi | transmitted hi =>
    exact ⟨fun _ => rfl, fun h => by rw [hi] at h; cases h⟩
  | delivered hi hd =>
    refine ⟨fun _ => ?_, fun h => by rw [hi] at h; cases h⟩
    cases hd <;> rfl
  | drained hi hd => exact ⟨fun h => absurd hi h, fun _ => by simp⟩
  | drainEnded hi => exact ⟨fun h => absurd hi h, fun _ => by simp⟩

/-- An instruction that is no link operation leaves the queue. -/
theorem queue_of_execEffect (h : ExecEffect i s t) (hlink : isLinkOp i = false) : t.q = s.q := by
  cases h with
  | answered | stepped | registeredInitiator | registeredResponder | drainEnded => rfl
  | transmitted hi | delivered hi | drained hi =>
    rw [hi] at hlink
    cases hlink

end Effect

/-- Settles O55: the sequencers after an instruction differ at the addressed one only. -/
theorem onlyTheAddressedSequencerChanges : Obligations.OnlyTheAddressedSequencerChanges := by
  intro i s t m h hm
  rcases seqs_of_execEffect (execEffect_of_exec h) with hseqs | ⟨n, e, f, htouched, _, _, hseqs⟩
  · rw [hseqs]
  · have hn : n ≠ m := fun hn => hm (hn ▸ htouched)
    rw [hseqs, List.getElem?_set_ne hn]

/-- Settles O57: field by field, from the effects of an instruction. -/
theorem linkStateFrame : Obligations.LinkStateFrame := by
  intro i s t h
  have heffect := execEffect_of_exec h
  obtain ⟨hpar, hinbox⟩ := par_inbox_of_execEffect heffect
  refine ⟨fun hlink => ?_, fun hlink => ?_, (draining_of_execEffect heffect).1, hinbox, hpar⟩
  · rcases tables_of_execEffect heffect with ⟨hitab, hrtab⟩ | ⟨_, _, _, _, hlink', _⟩
    · exact ⟨hitab, hrtab, queue_of_execEffect heffect hlink⟩
    · rw [hlink] at hlink'
      cases hlink'
  · rcases handover_of_execEffect heffect with hhandover | ⟨hlink', _⟩
    · exact hhandover
    · rw [hlink] at hlink'
      cases hlink'

/-! ### The frame of a sequencer's step (R48, R189) -/

/-- What every step function leaves of a sequencer: its constants, and an Initiator's `snd_seq` but for I.SEND. -/
def KeepsFrame (role : Role) (e : Seq) (r : SeqResult) : Prop :=
  constantsOf r.seq = constantsOf e ∧ (role = .initiator → r.seq.sndSeq = e.sndSeq)

theorem keepsFrame_raise (role : Role) (st : Status) (e : Seq) : KeepsFrame role e (raise st e) := ⟨rfl, fun _ => rfl⟩

/-- The unaddressed check in front of a step leaves no less. -/
theorem keepsFrame_addressed {role : Role} {dst : Port} {e : Seq} {r : SeqResult} (h : KeepsFrame role e r) :
    KeepsFrame role e (addressed dst e r) := by
  rcases addressed_cases dst e r with ⟨_, hr⟩ | ⟨_, hr⟩ <;> rw [hr]
  · exact keepsFrame_raise role _ e
  · exact h

theorem keepsFrame_caseAct (c : RxCase) (p : Params) (e : Seq) (g : Segment) :
    KeepsFrame (caseRole c) e (caseAct c p e g) := by
  cases c with
  | iC0 | iC7 | rC3 | rC7 | iC2 | iC4 | iC6 | rC1a | rC6 => exact ⟨rfl, fun _ => rfl⟩
  | iC1 | iC5 => exact keepsFrame_addressed ⟨rfl, fun _ => rfl⟩
  | iC3 =>
    cases hauto : p.iPshAutoack with
    | false =>
      rw [caseAct, actIC3_silent e g hauto]
      exact ⟨rfl, fun _ => rfl⟩
    | true =>
      rw [caseAct, actIC3_autoack e g hauto]
      exact keepsFrame_addressed ⟨rfl, fun _ => rfl⟩
  | rC1 | rC2 | rC5 => exact keepsFrame_addressed ⟨rfl, nofun⟩
  | rC4 =>
    cases hpolicy : p.finPolicy with
    | lazy =>
      rw [caseAct, actRC4_lazy e g hpolicy]
      exact keepsFrame_addressed ⟨rfl, nofun⟩
    | eager =>
      rw [caseAct, actRC4_eager e g hpolicy]
      exact keepsFrame_addressed ⟨rfl, nofun⟩

/-- How many rows stand after a row. -/
def rowsAfter : RxCase → Nat
  | .iC0 => 7
  | .iC1 => 6
  | .iC2 => 5
  | .iC3 => 4
  | .iC4 => 3
  | .iC5 => 2
  | .iC6 => 1
  | .rC1 => 6
  | .rC1a => 5
  | .rC2 => 4
  | .rC3 => 4
  | .rC4 => 3
  | .rC6 => 2
  | .rC5 => 1
  | .iC7 | .rC7 => 0

/-- A row performs the action of one case of its list, whose condition holds. -/
theorem caseRow_performs (p : Params) (e : Seq) (g : Segment) (c : RxCase) :
    ∃ c', caseRole c' = caseRole c ∧ caseCondition e g c' ∧ caseRow c p e g = caseAct c' p e g := by
  by_cases h : caseCondition e g c
  · exact ⟨c, rfl, h, caseRow_of_condition p h⟩
  · have hrole : caseRole (nextCase c) = caseRole c := by cases c <;> rfl
    have hlt : rowsAfter (nextCase c) < rowsAfter c := by
      cases c with
      | iC7 | rC7 => exact absurd trivial h
      | _ => decide
    obtain ⟨c', hrole', hcond, hrow⟩ := caseRow_performs p e g (nextCase c)
    exact ⟨c', hrole'.trans hrole, hcond, (caseRow_of_not_condition p h).trans hrow⟩
termination_by rowsAfter c

theorem keepsFrame_caseRow (c : RxCase) (p : Params) (e : Seq) (g : Segment) :
    KeepsFrame (caseRole c) e (caseRow c p e g) := by
  obtain ⟨c', hrole, _, hrow⟩ := caseRow_performs p e g c
  rw [hrow, ← hrole]
  exact keepsFrame_caseAct c' p e g

/-- The receive operation of a role: the length test, or the list of the decoded segment (R176, R211). -/
theorem receiveOf_cases (role : Role) (p : Params) (w : Wire) (e : Seq) :
    receiveOf role p w e = raise .malformedSegment e ∨
    ∃ g, codecDecode w = some g ∧ receiveOf role p w e = caseRow (firstCase role) p e g := by
  cases role with
  | initiator => exact (initiatorReceive_cases p w e).imp And.right id
  | responder => exact (responderReceive_cases p w e).imp And.right id

theorem keepsFrame_receiveOf (role : Role) (p : Params) (w : Wire) (e : Seq) :
    KeepsFrame role e (receiveOf role p w e) := by
  rcases receiveOf_cases role p w e with h | ⟨g, _, h⟩ <;> rw [h]
  · exact keepsFrame_raise role _ e
  · simpa only [caseRole_firstCase] using keepsFrame_caseRow (firstCase role) p e g

/-- A step that ends in an error and nothing else (R279). -/
def Raises (e : Seq) (r : SeqResult) : Prop := ∃ st, st ≠ .ok ∧ r = raise st e

theorem raises_raise {st : Status} (e : Seq) (h : st ≠ .ok) : Raises e (raise st e) := ⟨st, h, rfl⟩

/-- The unaddressed check raises, or the port is nonzero and the step is made (R178). -/
theorem addressed_raises_or (dst : Port) (e : Seq) (r : SeqResult) :
    Raises e (addressed dst e r) ∨ (dst ≠ 0 ∧ addressed dst e r = r) :=
  (addressed_cases dst e r).imp_left fun ⟨_, h⟩ => h ▸ raises_raise e (by decide)

/-- I.OPEN raises, or makes its step under its conditions (R172). -/
theorem openStep_cases (p : Params) (dst : Port) (e : Seq) :
    Raises e (openStep p dst e) ∨
    (e.state = .closed ∧ dst ≠ 0 ∧
      openStep p dst e = done { e with state := .synSent } [builtOut p e flagsSyn dst e.sndSeq e.rcvAck []]) := by
  by_cases hstate : e.state = .closed
  · rw [openStep_of_closed p dst hstate]
    exact (addressed_raises_or dst e _).imp_right fun h => ⟨hstate, h⟩
  · exact .inl ⟨_, by decide, openStep_of_ne_closed p dst hstate⟩

/-- I.SEND raises, or makes its step under its conditions (R173). -/
theorem sendStep_cases (p : Params) (dst : Port) (payload : List Byte) (e : Seq) :
    Raises e (sendStep p dst payload e) ∨
    (estLike e.state = true ∧ dst ≠ 0 ∧
      sendStep p dst payload e = done { e with sndSeq := e.sndSeq + BitVec.ofNat 32 payload.length }
        [builtOut p e flagsPshAck dst e.sndSeq e.rcvAck payload]) := by
  by_cases hstate : estLike e.state = true
  · rw [sendStep_of_estLike p dst payload hstate]
    exact (addressed_raises_or dst e _).imp_right fun h => ⟨hstate, h⟩
  · exact .inl ⟨_, by decide, sendStep_of_not_estLike p dst payload hstate⟩

/-- I.CLOSE raises, or makes its step under its conditions (R174). -/
theorem closeStep_cases (p : Params) (dst : Port) (e : Seq) :
    Raises e (closeStep p dst e) ∨
    (estLike e.state = true ∧ dst ≠ 0 ∧
      closeStep p dst e =
        done { e with state := .finWait1 } [builtOut p e flagsFinAck dst e.sndSeq e.rcvAck []]) := by
  by_cases hstate : estLike e.state = true
  · rw [closeStep_of_estLike p dst hstate]
    exact (addressed_raises_or dst e _).imp_right fun h => ⟨hstate, h⟩
  · exact .inl ⟨_, by decide, closeStep_of_not_estLike p dst hstate⟩

/-- I.EXPIRE raises, or makes its step under its condition (R175). -/
theorem expireStep_cases (e : Seq) :
    Raises e (expireStep e) ∨ (e.state = .timeWait ∧ expireStep e = done { e with state := .closed } []) := by
  by_cases hstate : e.state = .timeWait
  · exact .inr ⟨hstate, expireStep_of_timeWait hstate⟩
  · exact .inl ⟨_, by decide, expireStep_of_ne_timeWait hstate⟩

/-- Every step function keeps the constants (R48). -/
theorem constantsOf_of_runsStep {p : Params} {i : Instr} {role : Role} {f : Seq → SeqResult} (e : Seq)
    (h : RunsStep p i role f) : constantsOf (f e).seq = constantsOf e := by
  cases h with
  | openCommand => rcases openStep_cases p _ e with ⟨_, _, h⟩ | ⟨_, _, h⟩ <;> rw [h] <;> rfl
  | sendCommand => rcases sendStep_cases p _ _ e with ⟨_, _, h⟩ | ⟨_, _, h⟩ <;> rw [h] <;> rfl
  | closeCommand => rcases closeStep_cases p _ e with ⟨_, _, h⟩ | ⟨_, _, h⟩ <;> rw [h] <;> rfl
  | expireCommand => rcases expireStep_cases e with ⟨_, _, h⟩ | ⟨_, h⟩ <;> rw [h] <;> rfl
  | receive _ w => exact (keepsFrame_receiveOf role p w e).1
  | row c => exact (keepsFrame_caseRow c p e _).1

/-- Every step function of an Initiator keeps `snd_seq`, but I.SEND may advance it (R189). -/
theorem sndSeq_of_runsStep {p : Params} {i : Instr} {f : Seq → SeqResult} (e : Seq) (h : RunsStep p i .initiator f) :
    (f e).seq.sndSeq = e.sndSeq ∨
    ∃ n dst payload, i = .iSend n dst payload ∧ (f e).seq.sndSeq = e.sndSeq + BitVec.ofNat 32 payload.length := by
  generalize hrole : Role.initiator = role at h
  cases h with
  | openCommand => rcases openStep_cases p _ e with ⟨_, _, h⟩ | ⟨_, _, h⟩ <;> rw [h] <;> exact .inl rfl
  | sendCommand hi =>
    rcases sendStep_cases p _ _ e with ⟨_, _, h⟩ | ⟨_, _, h⟩ <;> rw [h]
    · exact .inl rfl
    · exact .inr ⟨_, _, _, hi, rfl⟩
  | closeCommand => rcases closeStep_cases p _ e with ⟨_, _, h⟩ | ⟨_, _, h⟩ <;> rw [h] <;> exact .inl rfl
  | expireCommand => rcases expireStep_cases e with ⟨_, _, h⟩ | ⟨_, h⟩ <;> rw [h] <;> exact .inl rfl
  | receive _ w => exact .inl ((keepsFrame_receiveOf role p w e).2 hrole.symm)
  | row c => exact .inl ((keepsFrame_caseRow c p e _).2 hrole.symm)

/-- Settles O54: at the addressed sequencer by its step function, elsewhere nothing changes. -/
theorem initiatorSequenceAdvancesOnlyInSend : Obligations.InitiatorSequenceAdvancesOnlyInSend := by
  intro i s t m e e' h he he' hrole
  rcases sequencer_of_execEffect (execEffect_of_exec h) he he' with rfl | ⟨f, htouched, hrun, rfl⟩
  · exact .inl rfl
  · rw [hrole] at hrun
    rcases sndSeq_of_runsStep e hrun with hsame | ⟨n, dst, payload, rfl, hsnd⟩
    · exact .inl hsame
    · obtain rfl : n = m := by simpa [touched] using htouched
      exact .inr ⟨dst, payload, rfl, hsnd⟩

/-- No instruction changes a parameter or a sequencer's constants (R48). -/
theorem sameConstants_of_execEffect {i : Instr} {s t : State} (h : ExecEffect i s t) : sameConstants s t := by
  refine ⟨(par_inbox_of_execEffect h).1, ?_⟩
  rcases seqs_of_execEffect h with hseqs | ⟨n, e, f, _, he, hrun, hseqs⟩
  · rw [hseqs]
  · obtain ⟨hn, rfl⟩ := List.getElem?_eq_some_iff.mp he
    rw [hseqs, List.map_set, constantsOf_of_runsStep _ hrun]
    have hn' : n < (s.seqs.map constantsOf).length := by rwa [List.length_map]
    rw [← List.getElem_map constantsOf (h := hn'), List.set_getElem_self]

end Sys2Proof.Proofs

/-! PROOF. The byte form of script lines (30_encoding.md R115): what each reader takes is exactly what its writer writes,
and from this that a line decodes to an instruction exactly where it is the byte form of that well-formed instruction. -/

namespace Sys2Proof.Proofs

open Sys2Proof Sys2Proof.Machine Sys2Proof.Laws

/-! ### Numbers and ports -/

theorem toNat_ofNat_byte {n : Nat} (h : n < 256) : (BitVec.ofNat 8 n).toNat = n := by
  rw [BitVec.toNat_ofNat]
  exact Nat.mod_eq_of_lt h

/-- The two bytes of a number are its quotient and its remainder by 256. -/
theorem be16_mul_add (hi lo : Byte) : be16 (256 * hi.toNat + lo.toNat) = [hi, lo] := by
  have hlo := lo.isLt
  have hquot : (256 * hi.toNat + lo.toNat) / 256 = hi.toNat := by omega
  have hrem : BitVec.ofNat 8 (256 * hi.toNat + lo.toNat) = lo := by
    apply BitVec.eq_of_toNat_eq
    rw [BitVec.toNat_ofNat]
    omega
  rw [be16, hquot, hrem, BitVec.ofNat_toNat, BitVec.setWidth_eq]

/-- The 2-byte reader takes exactly the 2-byte form of a number below 65536. -/
theorem takeBe16_eq_some_iff (bs rest : List Byte) (n : Nat) :
    takeBe16 bs = some (n, rest) ↔ n < 65536 ∧ bs = be16 n ++ rest := by
  constructor
  · intro h
    match bs, h with
    | hi :: lo :: bs, h =>
      have hhi := hi.isLt
      have hlo := lo.isLt
      obtain ⟨rfl, rfl⟩ : 256 * hi.toNat + lo.toNat = n ∧ bs = rest := by simpa [takeBe16] using h
      exact ⟨by omega, by rw [be16_mul_add]; rfl⟩
  · rintro ⟨hn, rfl⟩
    simp only [be16, List.cons_append, List.nil_append, takeBe16, BitVec.toNat_ofNat, Option.some.injEq,
      Prod.mk.injEq, and_true]
    omega

theorem takePort_eq_some_iff (bs rest : List Byte) (p : Port) :
    takePort bs = some (p, rest) ↔ bs = portBytes p ++ rest := by
  simp only [takePort, Option.map_eq_some_iff, Prod.exists, Prod.mk.injEq, takeBe16_eq_some_iff, portBytes]
  constructor
  · rintro ⟨n, bs', ⟨hn, rfl⟩, rfl, rfl⟩
    rw [BitVec.toNat_ofNat, Nat.mod_eq_of_lt hn]
  · rintro rfl
    exact ⟨p.toNat, rest, ⟨p.isLt, rfl⟩, by simp, rfl⟩

theorem takeInst_eq_some_iff (bs rest : List Byte) (k : Nat) :
    takeInst bs = some (k, rest) ↔ k < 256 ∧ bs = BitVec.ofNat 8 k :: rest := by
  cases bs with
  | nil => simp [takeInst]
  | cons b bs =>
    have hb := b.isLt
    simp only [takeInst, Option.some.injEq, Prod.mk.injEq, List.cons.injEq]
    constructor
    · rintro ⟨rfl, rfl⟩
      exact ⟨hb, by simp, rfl⟩
    · rintro ⟨hk, rfl, rfl⟩
      exact ⟨toNat_ofNat_byte hk, rfl⟩

theorem takeBytes_eq_some_iff (n : Nat) (bs l rest : List Byte) :
    takeBytes n bs = some (l, rest) ↔ l.length = n ∧ bs = l ++ rest := by
  rw [takeBytes]
  split
  · rename_i hn
    simp only [Option.some.injEq, Prod.mk.injEq]
    constructor
    · rintro ⟨rfl, rfl⟩
      exact ⟨by simpa using hn, (List.take_append_drop n bs).symm⟩
    · rintro ⟨rfl, rfl⟩
      exact ⟨List.take_left, List.drop_left⟩
  · rename_i hn
    simp only [reduceCtorEq, false_iff, not_and]
    rintro rfl rfl
    simp at hn

/-! ### Wires as bytes (R73, R115) -/

@[simp] theorem bytesOfWire_length (w : Wire) : (bytesOfWire w).length = (w.length + 7) / 8 := by
  simp [bytesOfWire]

/-- The bytes of a wire hold its bits, then zeros up to the last whole byte. -/
theorem wireOfBytes_bytesOfWire (w : Wire) :
    wireOfBytes (bytesOfWire w) = w ++ List.replicate (8 * ((w.length + 7) / 8) - w.length) false := by
  have hlen : (w ++ List.replicate (8 * ((w.length + 7) / 8) - w.length) false).length =
      8 * ((w.length + 7) / 8) := by
    rw [List.length_append, List.length_replicate]
    omega
  have hbytes := wireOfBytes_map_memRead _ 0 _ (by rw [hlen, Nat.zero_add])
  rw [List.drop_zero, List.take_of_length_le (by rw [hlen])] at hbytes
  simpa only [bytesOfWire, Nat.zero_add] using hbytes

/-- Bytes are known from their bits. -/
theorem wireOfBytes_injective {as bs : List Byte} (h : wireOfBytes as = wireOfBytes bs) : as = bs := by
  have hlen : as.length = bs.length := by
    have := congrArg List.length h
    simp only [wireOfBytes_length] at this
    omega
  have has := map_memRead_wireOfBytes as []
  have hbs := map_memRead_wireOfBytes bs []
  rw [h, hlen] at has
  exact has.symm.trans hbs

/-- A wire of whole bytes is the bits of its bytes. -/
theorem wireOfBytes_bytesOfWire_of_whole {w : Wire} (h : w.length % 8 = 0) : wireOfBytes (bytesOfWire w) = w := by
  have hpad : 8 * ((w.length + 7) / 8) - w.length = 0 := by omega
  rw [wireOfBytes_bytesOfWire, hpad, List.replicate_zero, List.append_nil]

@[simp] theorem bytesOfWire_wireOfBytes (bs : List Byte) : bytesOfWire (wireOfBytes bs) = bs :=
  wireOfBytes_injective (wireOfBytes_bytesOfWire_of_whole (by simp))

/-- The wire reader, with zeros behind the wire in its last byte, takes exactly the bytes of a wire of that length. -/
theorem takeBits_eq_some_iff (n : Nat) (bs rest : List Byte) (w : Wire) :
    takeBits n bs = some (w, true, rest) ↔ w.length = n ∧ bs = bytesOfWire w ++ rest := by
  simp only [takeBits, Option.map_eq_some_iff, Prod.exists, Prod.mk.injEq, takeBytes_eq_some_iff]
  constructor
  · rintro ⟨l, bs', ⟨hl, rfl⟩, rfl, hzero, rfl⟩
    have hw : ((wireOfBytes l).take n).length = n := by
      rw [List.length_take, wireOfBytes_length]
      omega
    have hdrop : (wireOfBytes l).drop n =
        List.replicate (8 * ((n + 7) / 8) - n) false := by
      refine List.eq_replicate_iff.mpr ⟨by simp [hl], fun b hb => ?_⟩
      simpa using List.all_eq_true.mp hzero b hb
    refine ⟨hw, congrArg (· ++ bs') (wireOfBytes_injective ?_)⟩
    rw [wireOfBytes_bytesOfWire, hw, ← hdrop, List.take_append_drop]
  · rintro ⟨rfl, rfl⟩
    refine ⟨bytesOfWire w, rest, ⟨bytesOfWire_length w, rfl⟩, ?_, ?_, rfl⟩
    · rw [wireOfBytes_bytesOfWire, List.take_left]
    · rw [wireOfBytes_bytesOfWire, List.drop_left]
      simp

theorem takeWire_eq_some_iff (bs rest : List Byte) (w : Wire) :
    takeWire bs = some (w, true, rest) ↔ w.length < 65536 ∧ bs = wireBytes w ++ rest := by
  simp only [takeWire, Option.bind_eq_some_iff, Prod.exists, takeBe16_eq_some_iff, takeBits_eq_some_iff, wireBytes]
  constructor
  · rintro ⟨n, bs', ⟨hn, rfl⟩, rfl, rfl⟩
    exact ⟨hn, (List.append_assoc ..).symm⟩
  · rintro ⟨hn, rfl⟩
    exact ⟨_, _, ⟨hn, List.append_assoc ..⟩, rfl, rfl⟩

/-! ### The lines -/

theorem orTruncated_eq_ok_iff (x : Option (Instr × List Byte)) (r : Instr × List Byte) :
    orTruncated x = .ok r ↔ x = some r := by
  cases x <;> simp [orTruncated]

theorem wireLine_eq_ok_iff (f : Wire → Instr) (x : Option (Wire × Bool × List Byte)) (i : Instr)
    (rest : List Byte) : wireLine f x = .ok (i, rest) ↔ ∃ w, x = some (w, true, rest) ∧ i = f w := by
  match x with
  | none => simp [wireLine]
  | some (w, false, bs) => simp [wireLine]
  | some (w, true, bs) => simp [wireLine, and_comm, eq_comm]

/-- An encoded record has the padding 0 (R141). -/
theorem memRead_padding_codecEncode (g : Segment) : memRead (codecEncode g) 109 3 = 0 := by
  have hlen : 160 ≤ (codecEncode g).length := by rw [codecEncode_length]; omega
  have hself := codecEncode_decodeFields (codecEncode g) hlen
  rw [decodeFields_codecEncode] at hself
  exact ((clearedWire_eq_self_iff _ hlen).mp hself.symm).1

/-- The operands of ENCODE: the payload's byte count and the bytes of the record's wire. -/
theorem encodeLineOperands_eq_ok_iff (bs rest : List Byte) (i : Instr) :
    encodeLineOperands bs = .ok (i, rest) ↔
      ∃ g : Segment, i = .encode g ∧ g.payload.length < 65536 ∧
        bs = be16 g.payload.length ++ bytesOfWire (codecEncode g) ++ rest := by
  constructor
  · intro h
    rw [encodeLineOperands] at h
    split at h
    · cases h
    · rename_i body rest' hread
      simp only [Option.bind_eq_some_iff, Prod.exists, takeBe16_eq_some_iff, takeBytes_eq_some_iff] at hread
      obtain ⟨n, _, ⟨hn, rfl⟩, hbody, rfl⟩ := hread
      dsimp only at h
      split at h
      · rename_i hpad
        have hlen : (wireOfBytes body).length = 160 + 8 * n := by rw [wireOfBytes_length]; omega
        have hcount : (decodeFields (wireOfBytes body)).payload.length = n := by
          rw [decodeFields, decodePayload_length, hlen]
          omega
        have hwire : codecEncode (decodeFields (wireOfBytes body)) = wireOfBytes body := by
          rw [codecEncode_decodeFields _ (by omega), clearedWire_eq_self_iff _ (by omega)]
          exact ⟨by simpa using hpad, by omega⟩
        cases h
        refine ⟨_, rfl, hcount ▸ hn, ?_⟩
        rw [hcount, hwire, bytesOfWire_wireOfBytes, List.append_assoc]
      · cases h
  · rintro ⟨g, rfl, hn, rfl⟩
    have hread : ((takeBe16 (be16 g.payload.length ++ bytesOfWire (codecEncode g) ++ rest)).bind
        fun r => takeBytes (20 + r.1) r.2) = some (bytesOfWire (codecEncode g), rest) := by
      rw [(takeBe16_eq_some_iff _ (bytesOfWire (codecEncode g) ++ rest) _).mpr ⟨hn, List.append_assoc ..⟩]
      refine (takeBytes_eq_some_iff _ _ _ _).mpr ⟨?_, rfl⟩
      rw [bytesOfWire_length, codecEncode_length]
      omega
    have hwire : wireOfBytes (bytesOfWire (codecEncode g)) = codecEncode g :=
      wireOfBytes_bytesOfWire_of_whole (by rw [codecEncode_length]; omega)
    simp only [encodeLineOperands, hread, hwire, memRead_padding_codecEncode, decodeFields_codecEncode]
    rfl

/-- The operands of I.SEND: a port, the payload's byte count and the payload. -/
theorem takeSend_eq_some_iff (bs : List Byte) (ep : Nat) (i : Instr) (rest : List Byte) :
    ((takePort bs).bind fun r => (takeBe16 r.2).bind fun n =>
      (takeBytes n.1 n.2).map fun t => (Instr.iSend ep r.1 t.1, t.2)) = some (i, rest) ↔
      ∃ dst payload, i = .iSend ep dst payload ∧ payload.length < 65536 ∧
        bs = portBytes dst ++ be16 payload.length ++ payload ++ rest := by
  simp only [Option.bind_eq_some_iff, Option.map_eq_some_iff, Prod.exists, Prod.mk.injEq, takePort_eq_some_iff,
    takeBe16_eq_some_iff, takeBytes_eq_some_iff, List.append_assoc]
  constructor
  · rintro ⟨dst, _, rfl, _, _, ⟨hn, rfl⟩, payload, _, ⟨rfl, rfl⟩, rfl, rfl⟩
    exact ⟨dst, payload, rfl, hn, rfl⟩
  · rintro ⟨dst, payload, rfl, hn, rfl⟩
    exact ⟨dst, _, rfl, _, _, ⟨hn, rfl⟩, payload, _, ⟨rfl, rfl⟩, rfl, rfl⟩

/-- The operand of I.OPEN and I.CLOSE: a port. -/
theorem takeCommand_eq_some_iff (bs : List Byte) (f : Port → Instr) (i : Instr) (rest : List Byte) :
    ((takePort bs).map fun r => (f r.1, r.2)) = some (i, rest) ↔ ∃ dst, i = f dst ∧ bs = portBytes dst ++ rest := by
  simp only [Option.map_eq_some_iff, Prod.exists, Prod.mk.injEq, takePort_eq_some_iff]
  constructor
  · rintro ⟨dst, _, rfl, rfl, rfl⟩
    exact ⟨dst, rfl, rfl⟩
  · rintro ⟨dst, rfl, rfl⟩
    exact ⟨dst, _, rfl, rfl, rfl⟩

/-- The operands of a registration: a port and a number of one byte. -/
theorem takeRegistration_eq_some_iff (bs : List Byte) (f : Port → Nat → Instr) (i : Instr) (rest : List Byte) :
    ((takePort bs).bind fun r => (takeInst r.2).map fun t => (f r.1 t.1, t.2)) = some (i, rest) ↔
      ∃ port n, i = f port n ∧ n < 256 ∧ bs = portBytes port ++ BitVec.ofNat 8 n :: rest := by
  simp only [Option.bind_eq_some_iff, Option.map_eq_some_iff, Prod.exists, Prod.mk.injEq, takePort_eq_some_iff,
    takeInst_eq_some_iff]
  constructor
  · rintro ⟨port, _, rfl, n, _, ⟨hn, rfl⟩, rfl, rfl⟩
    exact ⟨port, n, rfl, hn, rfl⟩
  · rintro ⟨port, n, rfl, hn, rfl⟩
    exact ⟨port, _, rfl, n, _, ⟨hn, rfl⟩, rfl, rfl⟩

/-- A line with one wire operand. -/
theorem wireLine_takeWire_eq_ok_iff (f : Wire → Instr) (bs rest : List Byte) (i : Instr) :
    wireLine f (takeWire bs) = .ok (i, rest) ↔ ∃ w, i = f w ∧ w.length < 65536 ∧ bs = wireBytes w ++ rest := by
  simp only [wireLine_eq_ok_iff, takeWire_eq_some_iff]
  constructor
  · rintro ⟨w, ⟨hn, rfl⟩, rfl⟩
    exact ⟨w, rfl, hn, rfl⟩
  · rintro ⟨w, rfl, hn, rfl⟩
    exact ⟨w, ⟨hn, rfl⟩, rfl⟩

/-- The operands of N.XMIT: two ports and a wire. -/
theorem decodeOperands_transmit_eq_ok_iff (b : Binding) (bs rest : List Byte) (i : Instr) :
    decodeOperands b 0xC bs = .ok (i, rest) ↔
      ∃ w src dst, i = .nXmit w src dst ∧ w.length < 65536 ∧
        bs = portBytes src ++ portBytes dst ++ wireBytes w ++ rest := by
  simp only [decodeOperands]
  constructor
  · intro h
    split at h
    · cases h
    · rename_i src dst bs' hports
      simp only [Option.bind_eq_some_iff, Option.map_eq_some_iff, Prod.exists, Prod.mk.injEq,
        takePort_eq_some_iff] at hports
      obtain ⟨_, _, rfl, _, _, rfl, rfl, rfl, rfl⟩ := hports
      obtain ⟨w, rfl, hw, rfl⟩ := (wireLine_takeWire_eq_ok_iff _ _ _ _).mp h
      exact ⟨w, _, _, rfl, hw, by simp only [List.append_assoc]⟩
  · rintro ⟨w, src, dst, rfl, hw, rfl⟩
    have hports : ((takePort (portBytes src ++ portBytes dst ++ wireBytes w ++ rest)).bind fun r =>
        (takePort r.2).map fun t => (r.1, t.1, t.2)) = some (src, dst, wireBytes w ++ rest) := by
      simp only [Option.bind_eq_some_iff, Option.map_eq_some_iff, Prod.exists, Prod.mk.injEq,
        takePort_eq_some_iff, List.append_assoc]
      exact ⟨src, _, rfl, dst, _, rfl, rfl, rfl, rfl⟩
    rw [hports]
    exact (wireLine_takeWire_eq_ok_iff _ _ _ _).mpr ⟨w, rfl, hw, rfl⟩

/-- A decoded line is the byte form of a well-formed instruction: by its operation number. -/
theorem wellFormed_of_decodeOperands {b : Binding} {op : Byte} {bs rest : List Byte} {i : Instr}
    (h : decodeOperands b op.toNat bs = .ok (i, rest)) :
    WellFormed b i = true ∧ ∃ line, encodeLine i = some line ∧ op :: bs = line ++ rest := by
  have hop (k : Nat) (hk : op.toNat = k) : op = BitVec.ofNat 8 k := by rw [← hk, BitVec.ofNat_toNat, BitVec.setWidth_eq]
  generalize hnum : op.toNat = k at h
  rw [hop k hnum]
  match k, h with
  | 0x0, h => cases h; exact ⟨rfl, _, rfl, rfl⟩
  | 0x3, h => cases h; exact ⟨rfl, _, rfl, rfl⟩
  | 0xD, h => cases h; exact ⟨rfl, _, rfl, rfl⟩
  | 0xE, h => cases h; exact ⟨rfl, _, rfl, rfl⟩
  | 0xF, h => cases h; exact ⟨rfl, _, rfl, rfl⟩
  | 0x7, h => cases h; exact ⟨beq_self_eq_true _, _, rfl, rfl⟩
  | 0x1, h =>
    obtain ⟨g, rfl, hn, rfl⟩ := (encodeLineOperands_eq_ok_iff _ _ _).mp h
    exact ⟨decide_eq_true hn, _, rfl, rfl⟩
  | 0x2, h =>
    obtain ⟨w, rfl, hw, rfl⟩ := (wireLine_takeWire_eq_ok_iff _ _ _ _).mp h
    exact ⟨decide_eq_true hw, _, rfl, rfl⟩
  | 0x8, h =>
    obtain ⟨w, rfl, hw, rfl⟩ := (wireLine_takeWire_eq_ok_iff _ _ _ _).mp h
    exact ⟨by simpa [WellFormed] using hw, _, rfl, rfl⟩
  | 0x9, h =>
    obtain ⟨w, rfl, hw, rfl⟩ := (wireLine_takeWire_eq_ok_iff _ _ _ _).mp h
    exact ⟨by simpa [WellFormed] using hw, _, rfl, rfl⟩
  | 0x4, h =>
    obtain ⟨dst, rfl, rfl⟩ := (takeCommand_eq_some_iff _ _ _ _).mp ((orTruncated_eq_ok_iff _ _).mp h)
    exact ⟨beq_self_eq_true _, _, rfl, rfl⟩
  | 0x6, h =>
    obtain ⟨dst, rfl, rfl⟩ := (takeCommand_eq_some_iff _ _ _ _).mp ((orTruncated_eq_ok_iff _ _).mp h)
    exact ⟨beq_self_eq_true _, _, rfl, rfl⟩
  | 0x5, h =>
    obtain ⟨dst, pl, rfl, hn, rfl⟩ := (takeSend_eq_some_iff _ _ _ _).mp ((orTruncated_eq_ok_iff _ _).mp h)
    exact ⟨by simpa [WellFormed] using hn, _, rfl, rfl⟩
  | 0xA, h =>
    obtain ⟨port, n, rfl, hn, rfl⟩ := (takeRegistration_eq_some_iff _ _ _ _).mp ((orTruncated_eq_ok_iff _ _).mp h)
    exact ⟨decide_eq_true hn, _, rfl, by simp⟩
  | 0xB, h =>
    obtain ⟨port, n, rfl, hn, rfl⟩ := (takeRegistration_eq_some_iff _ _ _ _).mp ((orTruncated_eq_ok_iff _ _).mp h)
    exact ⟨decide_eq_true hn, _, rfl, by simp⟩
  | 0xC, h =>
    obtain ⟨w, src, dst, rfl, hw, rfl⟩ := (decodeOperands_transmit_eq_ok_iff _ _ _ _).mp h
    exact ⟨decide_eq_true hw, _, rfl, rfl⟩
  | _ + 16, h => cases h

/-- The byte form of a well-formed instruction decodes to it: by the instruction. -/
theorem decodeLine_of_encodeLine {b : Binding} {i : Instr} {line : List Byte} (rest : List Byte)
    (hwf : WellFormed b i = true) (hline : encodeLine i = some line) : decodeLine b (line ++ rest) = .ok (i, rest) := by
  cases i with
  | reserved0 | reserved3 | reservedF | nDeliver | nDrain =>
    cases hline
    rfl
  | encode g =>
    cases hline
    exact (encodeLineOperands_eq_ok_iff _ _ _).mpr ⟨g, rfl, of_decide_eq_true hwf, rfl⟩
  | decode w =>
    cases hline
    exact (wireLine_takeWire_eq_ok_iff .decode _ _ _).mpr ⟨w, rfl, of_decide_eq_true hwf, rfl⟩
  | iRecv ep w =>
    cases hline
    obtain ⟨rfl, hw⟩ : ep = b.ini ∧ w.length < 65536 := by simpa [WellFormed] using hwf
    exact (wireLine_takeWire_eq_ok_iff (.iRecv b.ini) _ _ _).mpr ⟨w, rfl, hw, rfl⟩
  | rRecv ep w =>
    cases hline
    obtain ⟨rfl, hw⟩ : ep = b.rsp ∧ w.length < 65536 := by simpa [WellFormed] using hwf
    exact (wireLine_takeWire_eq_ok_iff (.rRecv b.rsp) _ _ _).mpr ⟨w, rfl, hw, rfl⟩
  | iOpen ep dst =>
    cases hline
    obtain rfl : ep = b.ini := eq_of_beq hwf
    exact (orTruncated_eq_ok_iff _ _).mpr ((takeCommand_eq_some_iff _ (.iOpen b.ini) _ _).mpr ⟨dst, rfl, rfl⟩)
  | iClose ep dst =>
    cases hline
    obtain rfl : ep = b.ini := eq_of_beq hwf
    exact (orTruncated_eq_ok_iff _ _).mpr ((takeCommand_eq_some_iff _ (.iClose b.ini) _ _).mpr ⟨dst, rfl, rfl⟩)
  | iExpire ep =>
    cases hline
    obtain rfl : ep = b.ini := eq_of_beq hwf
    rfl
  | iSend ep dst pl =>
    cases hline
    obtain ⟨rfl, hn⟩ : ep = b.ini ∧ pl.length < 65536 := by simpa [WellFormed] using hwf
    exact (orTruncated_eq_ok_iff _ _).mpr ((takeSend_eq_some_iff _ _ _ _).mpr ⟨dst, pl, rfl, hn, rfl⟩)
  | nRegi port n =>
    cases hline
    exact (orTruncated_eq_ok_iff _ _).mpr ((takeRegistration_eq_some_iff _ .nRegi _ _).mpr
      ⟨port, n, rfl, of_decide_eq_true hwf, rfl⟩)
  | nRegr port n =>
    cases hline
    exact (orTruncated_eq_ok_iff _ _).mpr ((takeRegistration_eq_some_iff _ .nRegr _ _).mpr
      ⟨port, n, rfl, of_decide_eq_true hwf, rfl⟩)
  | nXmit w src dst =>
    cases hline
    exact (decodeOperands_transmit_eq_ok_iff b _ _ _).mpr ⟨w, src, dst, rfl, of_decide_eq_true hwf, rfl⟩
  | _ => cases hline

/-- Settles O43: by the instruction, each reader taking what its writer wrote. -/
theorem scriptLineRoundTrip : Obligations.ScriptLineRoundTrip :=
  fun _ _ _ rest hwf hline => decodeLine_of_encodeLine rest hwf hline

/-- Settles O44: by the operation number, each reader having taken what its writer writes. -/
theorem scriptLineIsUnique : Obligations.ScriptLineIsUnique := by
  intro b bytes rest i h
  cases bytes with
  | nil => cases h
  | cons op bs => exact wellFormed_of_decodeOperands h

end Sys2Proof.Proofs

/-! PROOF. What a step of the machine can do: every step is the effect of one instruction that is no dispatch row, in the
state without the record it hands over or the request it takes. With what each receive operation can do, this gives the
invariant (10_state.md R44, R46, R56), the constants (R48) and the lifecycles (41_initiator.md R191, 42_responder.md
R222). -/

namespace Sys2Proof.Proofs

open Sys2Proof Sys2Proof.Machine Sys2Proof.Laws

/-! ### What `step` can answer -/

/-- The sixteen dispatch rows among the instructions. -/
def isDispatchRow : Instr → Bool
  | .iC0 _ _ | .iC1 _ _ | .iC2 _ _ | .iC3 _ _ | .iC4 _ _ | .iC5 _ _ | .iC6 _ _ | .iC7 _ _ => true
  | .rC1 _ _ | .rC1a _ _ | .rC2 _ _ | .rC3 _ _ | .rC4 _ _ | .rC6 _ _ | .rC5 _ _ | .rC7 _ _ => true
  | _ => false

theorem isDispatchRow_instr (c : RxCase) (n : Nat) (g : Segment) : isDispatchRow (c.instr n g) = true := by
  cases c <;> rfl

theorem isDispatchRow_recvInstr (n : Nat) (w : Wire) (role : Role) : isDispatchRow (recvInstr n w role) = false := by
  cases role <;> rfl

/-- A script line is no dispatch row, which has no byte form (R115). -/
theorem isDispatchRow_of_decodeLine {b : Binding} {bs rest : List Byte} {i : Instr}
    (h : decodeLine b bs = .ok (i, rest)) : isDispatchRow i = false := by
  obtain ⟨_, line, hline, _⟩ := scriptLineIsUnique b bs rest i h
  cases i with
  | iC0 | iC1 | iC2 | iC3 | iC4 | iC5 | iC6 | iC7 | rC1 | rC1a | rC2 | rC3 | rC4 | rC6 | rC5 | rC7 => cases hline
  | _ => rfl

theorem isDispatchRow_of_decodeCommand {n : Nat} {op : BitVec 4} {dst : Port} {payload : List Byte} {i : Instr}
    (h : decodeCommand n op dst payload = .ok i) : isDispatchRow i = false := by
  unfold decodeCommand at h
  split at h <;> cases h <;> rfl

theorem isDispatchRow_decodeCodecWire (w : Wire) : isDispatchRow (decodeCodecWire w) = false := by
  unfold decodeCodecWire
  split
  · rfl
  · split <;> rfl

/-- What a request decodes to does what an instruction that is no dispatch row does: a received wire's case is the
receive operation. -/
theorem exec_of_decodeRequest {s : State} {seqs : List Seq} {rq : Request} {i : Instr} {remaining : Option Request}
    (hdec : decodeRequest seqs rq = .ok (i, remaining)) (hseqs : s.seqs = seqs) :
    ∃ j, isDispatchRow j = false ∧ exec i s = exec j s := by
  cases rq with
  | script b bs =>
    cases hline : decodeLine b bs with
    | error err => simp [decodeRequest, hline] at hdec
    | ok r =>
      obtain ⟨j, rest⟩ := r
      have hj := isDispatchRow_of_decodeLine hline
      cases rest <;> simp only [decodeRequest, hline] at hdec <;> cases hdec <;> exact ⟨_, hj, rfl⟩
  | command n op dst pl =>
    cases hcmd : decodeCommand n op dst pl with
    | error err => simp [decodeRequest, hcmd] at hdec
    | ok j =>
      simp only [decodeRequest, hcmd] at hdec
      cases hdec
      exact ⟨_, isDispatchRow_of_decodeCommand hcmd, rfl⟩
  | receive n w =>
    cases hdec
    cases he : seqs[n]? with
    | none => exact ⟨.iRecv n w, rfl, by simp only [decodeReceive, he]⟩
    | some e => exact ⟨_, isDispatchRow_recvInstr n w e.role, exec_decodeReceive w he (hseqs ▸ he)⟩
  | wire w =>
    cases hdec
    exact ⟨_, isDispatchRow_decodeCodecWire w, rfl⟩
  | _ =>
    cases hdec
    exact ⟨_, rfl, rfl⟩

/-- A request that is no instruction has an answer at most (R110). -/
theorem rejectRequest_next {err : DecodeError} {s t : State} (h : rejectRequest err s = .next t) :
    t = s.answer .invalidState := by
  cases err <;> cases h
  rfl

/-- Every step with a next state is the effect of one instruction that is no dispatch row: the hand-over of the first
waiting record, the next delivery of a drain under way, or a request (R246, R245). -/
theorem execEffect_of_step {s t : State} (h : step s = .next t) :
    ∃ i inbox, isDispatchRow i = false ∧ (s.handover ≠ [] → ∃ w src dst, i = .nXmit w src dst) ∧
      (s.handover = [] → s.draining = true → i = .nDrain) ∧
      ExecEffect i { s with handover := s.handover.tail, inbox := inbox } t := by
  obtain ⟨seqs, itab, rtab, q, par, handover, draining, inbox, resp⟩ := s
  cases handover with
  | cons r rest => exact ⟨_, inbox, rfl, fun _ => ⟨_, _, _, rfl⟩, nofun, execEffect_of_exec h⟩
  | nil =>
    cases draining with
    | true => exact ⟨_, inbox, rfl, absurd rfl, fun _ _ => rfl, execEffect_of_exec h⟩
    | false =>
      cases inbox with
      | nil => cases h
      | cons rq rest =>
        cases hdec : decodeRequest seqs rq with
        | error err =>
          simp only [step, stepRequest, hdec] at h
          obtain rfl := rejectRequest_next h
          exact ⟨.reserved0, rest, rfl, absurd rfl, nofun, .answered (by decide) _⟩
        | ok r =>
          simp only [step, stepRequest, hdec] at h
          obtain ⟨j, hj, hexec⟩ := exec_of_decodeRequest
            (s := { seqs, itab, rtab, q, par, handover := [], draining := false, inbox := inboxAfter r.2 rest, resp })
            hdec rfl
          exact ⟨j, inboxAfter r.2 rest, hj, absurd rfl, nofun, execEffect_of_exec (hexec.symm.trans h)⟩

/-- Settles O51: a step is the effect of an instruction, which keeps the constants. -/
theorem stepKeepsConstants : Obligations.StepKeepsConstants := by
  intro s t h
  obtain ⟨i, inbox, _, _, _, heffect⟩ := execEffect_of_step h
  have hsame := sameConstants_of_execEffect heffect
  exact hsame

/-! ### What a receive operation can do -/

/-- The results of I.RECV (R176), each under the condition of its case. -/
inductive InitiatorReceives (p : Params) (w : Wire) (e : Seq) : SeqResult → Prop
  | raised {r} (hraises : Raises e r) : InitiatorReceives p w e r
  | inert : InitiatorReceives p w e (done e [])
  | synAck {g : Segment} (hstate : preEst e.state = true) (hport : g.srcPort ≠ 0) :
      InitiatorReceives p w e (done { e with rcvAck := g.seq + 1, state := .established }
        [builtOut p e flagsAck g.srcPort e.sndSeq (g.seq + 1) []])
  | ack (hstate : e.state = .synAckReceived) : InitiatorReceives p w e (done { e with state := .established } [])
  | dataSilent (g : Segment) (hstate : estLike e.state = true) :
      InitiatorReceives p w e
        (done { e with rcvAck := g.seq + BitVec.ofNat 32 g.payload.length, state := .dataReceived } [])
  | data {g : Segment} (hdec : codecDecode w = some g) (hpsh : g.flags.psh = true) (hstate : estLike e.state = true)
      (hport : g.srcPort ≠ 0) :
      InitiatorReceives p w e
        (done { e with rcvAck := g.seq + BitVec.ofNat 32 g.payload.length, state := .dataReceived }
          [builtOut p e flagsAck g.srcPort e.sndSeq (g.seq + BitVec.ofNat 32 g.payload.length) []])
  | finAcked (hstate : e.state = .finWait1) : InitiatorReceives p w e (done { e with state := .finWait2 } [])
  | fin {g : Segment} (hdec : codecDecode w = some g) (hfin : g.flags.fin = true) (hstate : e.state ≠ .closed)
      (hport : g.srcPort ≠ 0) :
      InitiatorReceives p w e (done { e with rcvAck := g.seq + 1, state := .timeWait }
        [builtOut p e flagsAck g.srcPort e.sndSeq (g.seq + 1) []])
  | bareAck (g : Segment) (hstate : e.state ≠ .closed) :
      InitiatorReceives p w e (done { e with rcvAck := bareAckUpdate p e.rcvAck g } [])

/-- The results of R.RECV (R211), each under the condition of its case. -/
inductive ResponderReceives (p : Params) (w : Wire) (e : Seq) : SeqResult → Prop
  | raised {r} (hraises : Raises e r) : ResponderReceives p w e r
  | inert : ResponderReceives p w e (done e [])
  | syn {g : Segment} (hstate : e.state = .listening) (hport : g.srcPort ≠ 0) :
      ResponderReceives p w e (done { e with rcvAck := g.seq + 1, state := .synReceived }
        [builtOut p e flagsSynAck g.srcPort e.sndSeq (g.seq + 1) []])
  | ack (hstate : e.state = .synReceived) : ResponderReceives p w e (done { e with state := .established } [])
  | data {g : Segment} (hdec : codecDecode w = some g) (hpsh : g.flags.psh = true) (hstate : estLike e.state = true)
      (hport : g.srcPort ≠ 0) :
      ResponderReceives p w e
        (done { e with rcvAck := g.seq + BitVec.ofNat 32 g.payload.length, state := .dataReceived }
          [builtOut p e flagsAck g.srcPort e.sndSeq (g.seq + BitVec.ofNat 32 g.payload.length) []])
  | finLazy {g : Segment} (hpolicy : p.finPolicy = .lazy) (hdec : codecDecode w = some g) (hfin : g.flags.fin = true)
      (hstate : estLike e.state = true) (hport : g.srcPort ≠ 0) :
      ResponderReceives p w e (done { e with rcvAck := g.seq + 1, state := .closeWait, finOwed := true }
        [builtOut p e flagsAck g.srcPort e.sndSeq (g.seq + 1) []])
  | finEager {g : Segment} (hpolicy : p.finPolicy = .eager) (hdec : codecDecode w = some g) (hfin : g.flags.fin = true)
      (hstate : estLike e.state = true) (hport : g.srcPort ≠ 0) :
      ResponderReceives p w e
        (done { e with rcvAck := g.seq + 1, sndSeq := e.sndSeq + 1, state := .lastAck, finOwed := false }
          [builtOut p e flagsAck g.srcPort e.sndSeq (g.seq + 1) [],
           builtOut p e flagsFin g.srcPort e.sndSeq (g.seq + 1) []])
  | finAcked (hstate : e.state = .lastAck) : ResponderReceives p w e (done { e with state := .closed } [])
  | owedFin {g : Segment} (howed : e.finOwed = true) (hport : g.srcPort ≠ 0) :
      ResponderReceives p w e (done { e with sndSeq := e.sndSeq + 1, state := .lastAck, finOwed := false }
        [builtOut p e flagsFin g.srcPort e.sndSeq e.rcvAck []])

/-- A result behind the unaddressed check, for a predicate that takes errors (R178). -/
theorem of_addressed {P : SeqResult → Prop} {dst : Port} {e : Seq} {r : SeqResult}
    (hraised : ∀ r, Raises e r → P r) (hstep : dst ≠ 0 → P r) : P (addressed dst e r) := by
  rcases addressed_raises_or dst e r with h | ⟨hdst, h⟩
  · exact hraised _ h
  · rw [h]
    exact hstep hdst

/-- I.RECV has one of its results: by the case its segment goes to. -/
theorem initiatorReceives (p : Params) (w : Wire) (e : Seq) : InitiatorReceives p w e (initiatorReceive p w e) := by
  rcases initiatorReceive_cases p w e with ⟨_, h⟩ | ⟨g, hdec, h⟩ <;> rw [h]
  · exact .raised (raises_raise e (by decide))
  rcases rowIC0_cases p e g with ⟨_, h⟩ | ⟨hstate, _, _, h⟩ | ⟨hstate, _, h⟩ | ⟨hstate, hpsh, h⟩ | ⟨hstate, _, h⟩ |
    ⟨hstate, hfin, h⟩ | ⟨hstate, _, h⟩ | ⟨_, h⟩ <;> rw [h]
  · exact .inert
  · exact of_addressed (fun _ => .raised) (.synAck hstate)
  · exact .ack hstate
  · cases hauto : p.iPshAutoack with
    | false => exact actIC3_silent e g hauto ▸ .dataSilent g hstate
    | true => exact actIC3_autoack e g hauto ▸ of_addressed (fun _ => .raised) (.data hdec hpsh hstate)
  · exact .finAcked hstate
  · exact of_addressed (fun _ => .raised) (.fin hdec hfin hstate)
  · exact .bareAck g hstate
  · exact .inert

/-- R.RECV has one of its results: by the case its segment goes to. -/
theorem responderReceives (p : Params) (w : Wire) (e : Seq) : ResponderReceives p w e (responderReceive p w e) := by
  rcases responderReceive_cases p w e with ⟨_, h⟩ | ⟨g, hdec, h⟩ <;> rw [h]
  · exact .raised (raises_raise e (by decide))
  rcases rowRC1_cases p e g with ⟨hstate, _, h⟩ | ⟨hstate, _, h⟩ | ⟨hstate, hpsh, h⟩ | ⟨hstate, hfin, h⟩ |
    ⟨hstate, _, _, h⟩ | ⟨howed, h⟩ | ⟨_, h⟩ <;> rw [h]
  · exact of_addressed (fun _ => .raised) (.syn hstate)
  · exact .ack hstate
  · exact of_addressed (fun _ => .raised) (.data hdec hpsh hstate)
  · cases hpolicy : p.finPolicy with
    | lazy =>
      exact actRC4_lazy e g hpolicy ▸ of_addressed (fun _ => .raised) (.finLazy hpolicy hdec hfin hstate)
    | eager =>
      exact actRC4_eager e g hpolicy ▸ of_addressed (fun _ => .raised) (.finEager hpolicy hdec hfin hstate)
  · exact .finAcked hstate
  · exact of_addressed (fun _ => .raised) (.owedFin howed)
  · exact .inert

/-! ### The invariant of one sequencer (R56) -/

theorem initiatorInv_of_receives {p : Params} {w : Wire} {e : Seq} {r : SeqResult} (h : InitiatorReceives p w e r)
    (hinv : initiatorInv e) : initiatorInv r.seq := by
  obtain ⟨hlabel, howed⟩ := hinv
  cases h with
  | raised hraises =>
    obtain ⟨_, _, rfl⟩ := hraises
    exact ⟨hlabel, howed⟩
  | inert | bareAck => exact ⟨hlabel, howed⟩
  | synAck | ack | dataSilent | data | finAcked | fin => exact ⟨rfl, howed⟩

/-- Before its FIN a Responder's `snd_seq` is its `ISS` (R56 (d)). -/
theorem sndSeq_eq_iss {p : Params} {e : Seq} (hinv : responderInv p e) (hfin : finEmitted e.state = false) :
    e.sndSeq = e.iss := by
  obtain ⟨_, _, _, hsnd⟩ := hinv
  rw [hsnd, hfin]
  rfl

/-- A FIN is owed in CLOSE-WAIT alone (R56 (c)). -/
theorem closeWait_of_finOwed {p : Params} {e : Seq} (hinv : responderInv p e) (howed : e.finOwed = true) :
    e.state = .closeWait := by
  obtain ⟨_, hiff, _, _⟩ := hinv
  exact hiff.mp howed

/-- In a label that is not CLOSE-WAIT no FIN is owed (R56 (c)). -/
theorem finOwed_eq_false {p : Params} {e : Seq} (hinv : responderInv p e) (hstate : e.state ≠ .closeWait) :
    e.finOwed = false :=
  Bool.eq_false_iff.mpr fun howed => hstate (closeWait_of_finOwed hinv howed)

theorem responderInv_of_receives {p : Params} {w : Wire} {e : Seq} {r : SeqResult} (h : ResponderReceives p w e r)
    (hinv : responderInv p e) : responderInv p r.seq := by
  cases h with
  | raised hraises =>
    obtain ⟨_, _, rfl⟩ := hraises
    exact hinv
  | inert => exact hinv
  | syn hstate | ack hstate =>
    have hsnd := sndSeq_eq_iss hinv (by rw [hstate]; rfl)
    have howed := finOwed_eq_false hinv (by rw [hstate]; decide)
    simp [responderInv, responderReachable, finEmitted, hsnd, howed]
  | data _ _ hstate =>
    have hsnd := sndSeq_eq_iss hinv (by rcases (estLike_iff _).mp hstate with h | h <;> rw [h] <;> rfl)
    have howed := finOwed_eq_false hinv (by rcases (estLike_iff _).mp hstate with h | h <;> rw [h] <;> decide)
    simp [responderInv, responderReachable, finEmitted, hsnd, howed]
  | finLazy hpolicy _ _ hstate =>
    have hsnd := sndSeq_eq_iss hinv (by rcases (estLike_iff _).mp hstate with h | h <;> rw [h] <;> rfl)
    simp [responderInv, responderReachable, finEmitted, hsnd, hpolicy]
  | finEager _ _ _ hstate =>
    have hsnd := sndSeq_eq_iss hinv (by rcases (estLike_iff _).mp hstate with h | h <;> rw [h] <;> rfl)
    simp [responderInv, responderReachable, finEmitted, hsnd]
  | finAcked hstate =>
    have howed := finOwed_eq_false hinv (by rw [hstate]; decide)
    obtain ⟨_, _, _, hsnd⟩ := hinv
    simp [responderInv, responderReachable, finEmitted, hstate] at hsnd ⊢
    exact ⟨howed, by simp [howed], hsnd⟩
  | owedFin howed =>
    have hstate := closeWait_of_finOwed hinv howed
    have hsnd := sndSeq_eq_iss hinv (by rw [hstate]; rfl)
    simp [responderInv, responderReachable, finEmitted, hsnd]

theorem initiatorInv_of_raises {e : Seq} {r : SeqResult} (h : Raises e r) (hinv : initiatorInv e) :
    initiatorInv r.seq := by
  obtain ⟨_, _, rfl⟩ := h
  exact hinv

/-- Every step function but a dispatch row keeps R56 of its sequencer. -/
theorem seqInv_of_runsStep {p : Params} {i : Instr} {e : Seq} {f : Seq → SeqResult} (h : RunsStep p i e.role f)
    (hrow : isDispatchRow i = false) (hinv : seqInv p e) : seqInv p (f e).seq := by
  have hrole : (f e).seq.role = e.role := congrArg SeqConfig.role (constantsOf_of_runsStep e h)
  generalize he : e.role = role at h hrole
  rw [seqInv, he] at hinv
  rw [seqInv, hrole]
  cases h with
  | openCommand =>
    rcases openStep_cases p _ e with h | ⟨_, _, h⟩
    · exact initiatorInv_of_raises h hinv
    · rw [h]; exact ⟨rfl, hinv.2⟩
  | sendCommand =>
    rcases sendStep_cases p _ _ e with h | ⟨_, _, h⟩
    · exact initiatorInv_of_raises h hinv
    · rw [h]; exact hinv
  | closeCommand =>
    rcases closeStep_cases p _ e with h | ⟨_, _, h⟩
    · exact initiatorInv_of_raises h hinv
    · rw [h]; exact ⟨rfl, hinv.2⟩
  | expireCommand =>
    rcases expireStep_cases e with h | ⟨_, h⟩
    · exact initiatorInv_of_raises h hinv
    · rw [h]; exact ⟨rfl, hinv.2⟩
  | receive _ w =>
    cases role with
    | initiator => exact initiatorInv_of_receives (initiatorReceives p w e) hinv
    | responder => exact responderInv_of_receives (responderReceives p w e) hinv
  | row c hi =>
    rw [hi, isDispatchRow_instr] at hrow
    cases hrow

/-! ### Emitted records (R46, R171) -/

theorem builtRecord_builtOut (p : Params) (e : Seq) {f : FlagSet} {dst : Port} (sq ak : Word32) (payload : List Byte)
    (hdst : dst ≠ 0) (hurg : f.urg = false) (hrst : f.rst = false) :
    builtRecord (builtOut p e f dst sq ak payload) :=
  ⟨_, rfl, rfl, rfl, rfl, hdst, hurg, hrst⟩

theorem builtRecord_of_raises {e : Seq} {r : SeqResult} (h : Raises e r) : ∀ d ∈ r.tx, builtRecord d := by
  obtain ⟨_, _, rfl⟩ := h
  nofun

theorem builtRecord_of_mem_singleton {p : Params} {e : Seq} {f : FlagSet} {dst : Port} {sq ak : Word32}
    {payload : List Byte} (hdst : dst ≠ 0) (hurg : f.urg = false) (hrst : f.rst = false) :
    ∀ d ∈ [builtOut p e f dst sq ak payload], builtRecord d := fun _ hd =>
  List.mem_singleton.mp hd ▸ builtRecord_builtOut p e sq ak payload hdst hurg hrst

theorem builtRecord_of_initiatorReceives {p : Params} {w : Wire} {e : Seq} {r : SeqResult}
    (h : InitiatorReceives p w e r) : ∀ d ∈ r.tx, builtRecord d := by
  cases h with
  | raised hraises => exact builtRecord_of_raises hraises
  | inert | ack | dataSilent | finAcked | bareAck => nofun
  | synAck _ hport | data _ _ _ hport | fin _ _ _ hport => exact builtRecord_of_mem_singleton hport rfl rfl

theorem builtRecord_of_responderReceives {p : Params} {w : Wire} {e : Seq} {r : SeqResult}
    (h : ResponderReceives p w e r) : ∀ d ∈ r.tx, builtRecord d := by
  cases h with
  | raised hraises => exact builtRecord_of_raises hraises
  | inert | ack | finAcked => nofun
  | syn _ hport | data _ _ _ hport | finLazy _ _ _ _ hport | owedFin _ hport =>
    exact builtRecord_of_mem_singleton hport rfl rfl
  | finEager _ _ _ _ hport =>
    intro d hd
    rcases List.mem_pair.mp hd with rfl | rfl
    · exact builtRecord_builtOut p e _ _ [] hport rfl rfl
    · exact builtRecord_builtOut p e _ _ [] hport rfl rfl

/-- Every record that a sequencer's step function emits, a dispatch row apart, is a built segment to a nonzero port. -/
theorem builtRecord_of_runsStep {p : Params} {i : Instr} {role : Role} {f : Seq → SeqResult} (e : Seq)
    (h : RunsStep p i role f) (hrow : isDispatchRow i = false) : ∀ d ∈ (f e).tx, builtRecord d := by
  cases h with
  | openCommand =>
    rcases openStep_cases p _ e with h | ⟨_, hdst, h⟩
    · exact builtRecord_of_raises h
    · rw [h]; exact builtRecord_of_mem_singleton hdst rfl rfl
  | sendCommand =>
    rcases sendStep_cases p _ _ e with h | ⟨_, hdst, h⟩
    · exact builtRecord_of_raises h
    · rw [h]; exact builtRecord_of_mem_singleton hdst rfl rfl
  | closeCommand =>
    rcases closeStep_cases p _ e with h | ⟨_, hdst, h⟩
    · exact builtRecord_of_raises h
    · rw [h]; exact builtRecord_of_mem_singleton hdst rfl rfl
  | expireCommand =>
    rcases expireStep_cases e with h | ⟨_, h⟩
    · exact builtRecord_of_raises h
    · rw [h]; nofun
  | receive _ w =>
    cases role with
    | initiator => exact builtRecord_of_initiatorReceives (initiatorReceives p w e)
    | responder => exact builtRecord_of_responderReceives (responderReceives p w e)
  | row c hi =>
    rw [hi, isDispatchRow_instr] at hrow
    cases hrow

/-! ### The invariant of the machine -/

section Effect

variable {i : Instr} {s t : State}

theorem sequencersOk_of_execEffect (h : ExecEffect i s t) (hrow : isDispatchRow i = false) (hok : sequencersOk s) :
    sequencersOk t := by
  intro e' he'
  rw [(par_inbox_of_execEffect h).1]
  rcases seqs_of_execEffect h with hseqs | ⟨n, e, f, _, he, hrun, hseqs⟩ <;> rw [hseqs] at he'
  · exact hok e' he'
  · rcases List.mem_or_eq_of_mem_set he' with hmem | rfl
    · exact hok e' hmem
    · exact seqInv_of_runsStep hrun hrow (hok e (List.mem_of_getElem? he))

/-- The role of every sequencer is constant, so a typed table stays typed. -/
theorem tableOk_of_sameConstants {role : Role} {tab : PortTable} (hsame : sameConstants s t)
    (hok : tableOk role tab s.seqs) : tableOk role tab t.seqs := by
  refine ⟨hok.1, fun a ha => ?_⟩
  obtain ⟨e, he, hrole⟩ := hok.2 a ha
  have hconst : (t.seqs.map constantsOf)[a.2]? = some (constantsOf e) := by
    rw [hsame.2, List.getElem?_map, he, Option.map_some]
  rw [List.getElem?_map, Option.map_eq_some_iff] at hconst
  obtain ⟨e', he', hee'⟩ := hconst
  exact ⟨e', he', (congrArg SeqConfig.role hee').trans hrole⟩

/-- A registration of a sequencer of the role keeps a table canonical and typed (R44). -/
theorem tableOk_tableSet {role : Role} {tab : PortTable} {port : Port} {n : Nat} {e : Seq} {seqs : List Seq}
    (hok : tableOk role tab seqs) (he : seqs[n]? = some e) (hrole : e.role = role) :
    tableOk role (tableSet tab port n) seqs := by
  refine ⟨tableSet_wf tab port n hok.1, fun a ha => ?_⟩
  rcases mem_tableSet tab port n a ha with rfl | hmem
  · exact ⟨e, he, hrole⟩
  · exact hok.2 a hmem

theorem tablesOk_of_execEffect (h : ExecEffect i s t) (hok : tablesOk s) : tablesOk t := by
  have hsame := sameConstants_of_execEffect h
  obtain ⟨hitab, hrtab⟩ := hok
  refine ⟨tableOk_of_sameConstants hsame ?_, tableOk_of_sameConstants hsame ?_⟩
  all_goals
    rcases tables_of_execEffect h with ⟨hi, hr⟩ | ⟨_, _, _, he, _, ⟨hrole, hi, hr⟩ | ⟨hrole, hi, hr⟩⟩
  · rw [hi]; exact hitab
  · rw [hi]; exact tableOk_tableSet hitab he hrole
  · rw [hi]; exact hitab
  · rw [hr]; exact hrtab
  · rw [hr]; exact hrtab
  · rw [hr]; exact tableOk_tableSet hrtab he hrole

theorem handoverOk_of_execEffect (h : ExecEffect i s t) (hrow : isDispatchRow i = false) (hok : handoverOk s) :
    handoverOk t := by
  intro d hd
  rcases handover_of_execEffect h with hsame | ⟨_, _, e, f, _, hrun, happ⟩
  · exact hok d (hsame ▸ hd)
  · rw [happ, List.mem_append] at hd
    rcases hd with hd | hd
    · exact hok d hd
    · exact builtRecord_of_runsStep e hrun hrow d hd

end Effect

/-- A drain is under way after a step only if the step was its delivery, which had nothing to hand over (R245). -/
theorem drainOk_of_execEffect {i : Instr} {s t : State} {inbox : List Request} (hok : drainOk s)
    (hhandover : s.handover ≠ [] → ∃ w src dst, i = .nXmit w src dst)
    (hdraining : s.handover = [] → s.draining = true → i = .nDrain)
    (h : ExecEffect i { s with handover := s.handover.tail, inbox := inbox } t) : drainOk t := by
  intro ht
  obtain ⟨hkeeps, hqueue⟩ := draining_of_execEffect h
  have hi : i = .nDrain := by
    by_contra hi
    have hs : s.draining = true := (hkeeps hi).symm.trans ht
    exact hi (hdraining (hok hs).2 hs)
  have hnil : s.handover = [] := by
    by_contra hne
    obtain ⟨w, src, dst, hxmit⟩ := hhandover hne
    rw [hi] at hxmit
    cases hxmit
  refine ⟨hqueue hi ht, ?_⟩
  rcases handover_of_execEffect h with hsame | ⟨hlink, _⟩
  · rw [hsame, hnil]
    rfl
  · rw [hi] at hlink
    cases hlink

/-- Settles O50: each part of the invariant is kept by the effect of the step's instruction. -/
theorem stepKeepsTheInvariant : Obligations.StepKeepsTheInvariant := by
  rintro s t ⟨hseqs, htables, hwaiting, hdrain⟩ hstep
  obtain ⟨i, inbox, hrow, hhandover, hdraining, h⟩ := execEffect_of_step hstep
  have htail : handoverOk { s with handover := s.handover.tail, inbox := inbox } := fun d hd =>
    hwaiting d (List.mem_of_mem_tail hd)
  exact ⟨sequencersOk_of_execEffect h hrow hseqs, tablesOk_of_execEffect h htables,
    handoverOk_of_execEffect h hrow htail, drainOk_of_execEffect hdrain hhandover hdraining h⟩

/-- Settles O49: no tables, records or drain at reset, and each role's reset label meets R56. -/
theorem resetEstablishesTheInvariant : Obligations.ResetEstablishesTheInvariant := by
  intro p cs
  refine ⟨fun e he => ?_, ⟨⟨rfl, nofun⟩, rfl, nofun⟩, nofun, nofun⟩
  obtain ⟨⟨role, port, iss⟩, _, rfl⟩ := List.mem_map.mp he
  cases role with
  | initiator => exact ⟨rfl, rfl⟩
  | responder => exact ⟨rfl, by simp [Seq.reset, resetLabel], nofun, rfl⟩

/-! ### The lifecycles (R191, R222) -/

theorem initiatorRank_of_estLike {c : ConnState} (h : estLike c = true) : initiatorRank c ≤ 4 := by
  rcases (estLike_iff c).mp h with rfl | rfl <;> decide

theorem responderRank_of_estLike {c : ConnState} (h : estLike c = true) : responderRank c ≤ 3 := by
  rcases (estLike_iff c).mp h with rfl | rfl <;> decide

theorem initiatorRank_of_preEst {c : ConnState} (h : preEst c = true) : initiatorRank c ≤ 2 := by
  rcases (preEst_iff c).mp h with rfl | rfl <;> decide

/-- Of the labels an Initiator reaches only CLOSED ranks above TIME-WAIT. -/
theorem initiatorRank_of_ne_closed {c : ConnState} (h : c ≠ .closed) : initiatorRank c ≤ 7 := by
  cases c with
  | closed => exact absurd rfl h
  | _ => decide

/-- I.RECV never lowers an Initiator's rank. -/
theorem initiatorRank_le_of_receives {p : Params} {w : Wire} {e : Seq} {r : SeqResult}
    (h : InitiatorReceives p w e r) : initiatorRank e.state ≤ initiatorRank r.seq.state := by
  cases h with
  | raised hraises =>
    obtain ⟨_, _, rfl⟩ := hraises
    exact le_rfl
  | inert | bareAck => exact le_rfl
  | synAck hstate => exact (initiatorRank_of_preEst hstate).trans (by simp [initiatorRank])
  | ack hstate | finAcked hstate =>
    rw [hstate]
    simp [initiatorRank]
  | dataSilent _ hstate | data _ _ hstate => exact initiatorRank_of_estLike hstate
  | fin _ _ hstate => exact initiatorRank_of_ne_closed hstate

/-- R.RECV never lowers a Responder's rank: a FIN is owed in CLOSE-WAIT alone (R56 (c)). -/
theorem responderRank_le_of_receives {p : Params} {w : Wire} {e : Seq} {r : SeqResult}
    (h : ResponderReceives p w e r) (hinv : responderInv p e) :
    responderRank e.state ≤ responderRank r.seq.state := by
  cases h with
  | raised hraises =>
    obtain ⟨_, _, rfl⟩ := hraises
    exact le_rfl
  | inert => exact le_rfl
  | syn hstate | ack hstate | finAcked hstate =>
    rw [hstate]
    simp [responderRank]
  | data _ _ hstate => exact responderRank_of_estLike hstate
  | finLazy _ _ _ hstate | finEager _ _ _ hstate =>
    exact (responderRank_of_estLike hstate).trans (by simp [responderRank])
  | owedFin howed =>
    rw [closeWait_of_finOwed hinv howed]
    simp [responderRank]

/-- No step function but a dispatch row lowers its sequencer's rank, I.OPEN in CLOSED apart (R191, R222). -/
theorem rank_le_of_runsStep {p : Params} {i : Instr} {e : Seq} {f : Seq → SeqResult} (h : RunsStep p i e.role f)
    (hrow : isDispatchRow i = false) (hinv : seqInv p e) :
    rank e ≤ rank (f e).seq ∨ (e.role = .initiator ∧ e.state = .closed ∧ (f e).seq.state = .synSent) := by
  have hrole : (f e).seq.role = e.role := congrArg SeqConfig.role (constantsOf_of_runsStep e h)
  have hraises {r : SeqResult} (h : Raises e r) : initiatorRank e.state ≤ initiatorRank r.seq.state := by
    obtain ⟨_, _, rfl⟩ := h
    exact le_rfl
  generalize he : e.role = role at h hrole
  rw [seqInv, he] at hinv
  rw [rank, rank, hrole, he]
  cases h with
  | openCommand =>
    rcases openStep_cases p _ e with h | ⟨hstate, _, h⟩
    · exact .inl (hraises h)
    · exact .inr ⟨rfl, hstate, by rw [h]; rfl⟩
  | sendCommand =>
    rcases sendStep_cases p _ _ e with h | ⟨_, _, h⟩
    · exact .inl (hraises h)
    · exact .inl (by rw [h]; exact le_rfl)
  | closeCommand =>
    rcases closeStep_cases p _ e with h | ⟨hstate, _, h⟩
    · exact .inl (hraises h)
    · exact .inl (by rw [h]; exact (initiatorRank_of_estLike hstate).trans (by simp [initiatorRank]))
  | expireCommand =>
    rcases expireStep_cases e with h | ⟨hstate, h⟩
    · exact .inl (hraises h)
    · exact .inl (by rw [h, hstate]; simp [initiatorRank])
  | receive _ w =>
    cases role with
    | initiator => exact .inl (initiatorRank_le_of_receives (initiatorReceives p w e))
    | responder => exact .inl (responderRank_le_of_receives (responderReceives p w e) hinv)
  | row c hi =>
    rw [hi, isDispatchRow_instr] at hrow
    cases hrow

/-- Settles O52: at the addressed sequencer by its step function, elsewhere nothing moves. -/
theorem lifecycleIsMonotone : Obligations.LifecycleIsMonotone := by
  intro s t hok hstep m e e' he he'
  obtain ⟨i, inbox, hrow, _, _, h⟩ := execEffect_of_step hstep
  rcases sequencer_of_execEffect h he he' with rfl | ⟨f, _, hrun, rfl⟩
  · exact .inl le_rfl
  · exact rank_le_of_runsStep hrun hrow (hok e (List.mem_of_getElem? he))

end Sys2Proof.Proofs

/-! PROOF. What the operations of one sequencer write and emit (10_state.md R55, 60_exceptions.md R279), that CLOSED is
inert (41_initiator.md R180, 42_responder.md R225), and which fields of a segment they read (70_reset_and_hazards.md
R307). -/

namespace Sys2Proof.Proofs

open Sys2Proof Sys2Proof.Machine Sys2Proof.Laws

/-! ### The state after an operation, at its sequencer -/

/-- An operation on a sequencer writes and answers one result: of its step, or an error at the other role (R110). -/
theorem result_of_onSeq {role : Role} {n : Nat} {f : Seq → SeqResult} {s t : State} {e : Seq}
    (h : onSeq role n f s = .next t) (he : s.seqs[n]? = some e) :
    ∃ r, (r = f e ∨ Raises e r) ∧ t = s.commit n r := by
  obtain ⟨e₀, he₀, ⟨_, rfl⟩ | ⟨_, _, rfl⟩⟩ := onSeq_next h
  · exact ⟨_, .inr (raises_raise e (st := .invalidState) (by decide)), (commit_raise he _).symm⟩
  · obtain rfl : e₀ = e := by simpa [he₀] using he
    exact ⟨_, .inl rfl, rfl⟩

/-- The sequencer that a step writes. -/
theorem eq_seq_of_commit {s : State} {n : Nat} {e e' : Seq} {r : SeqResult} (he : s.seqs[n]? = some e)
    (he' : (s.commit n r).seqs[n]? = some e') : e' = r.seq := by
  have hn := (List.getElem?_eq_some_iff.mp he).1
  rw [commit_seqs, List.getElem?_set_self hn] at he'
  exact (Option.some.inj he').symm

/-- A step function, a dispatch row apart, that does not answer OK raises (R279). -/
theorem raises_of_runsStep {p : Params} {i : Instr} {role : Role} {f : Seq → SeqResult} {e : Seq}
    (h : RunsStep p i role f) (hrow : isDispatchRow i = false) (hstatus : (f e).status ≠ .ok) : Raises e (f e) := by
  cases h with
  | openCommand => exact (openStep_cases p _ e).resolve_right fun ⟨_, _, h⟩ => hstatus (by rw [h]; rfl)
  | sendCommand => exact (sendStep_cases p _ _ e).resolve_right fun ⟨_, _, h⟩ => hstatus (by rw [h]; rfl)
  | closeCommand => exact (closeStep_cases p _ e).resolve_right fun ⟨_, _, h⟩ => hstatus (by rw [h]; rfl)
  | expireCommand => exact (expireStep_cases e).resolve_right fun ⟨_, h⟩ => hstatus (by rw [h]; rfl)
  | receive _ w =>
    cases role with
    | initiator =>
      have h := initiatorReceives p w e
      generalize hr : initiatorReceive p w e = r at h
      rw [receiveOf, hr] at hstatus ⊢
      cases h with
      | raised hraises => exact hraises
      | _ => exact absurd rfl hstatus
    | responder =>
      have h := responderReceives p w e
      generalize hr : responderReceive p w e = r at h
      rw [receiveOf, hr] at hstatus ⊢
      cases h with
      | raised hraises => exact hraises
      | _ => exact absurd rfl hstatus
  | row c hi =>
    rw [hi, isDispatchRow_instr] at hrow
    cases hrow

/-- What an operation on a sequencer of either role leaves: a result, written to the sequencer, answered, and handed over
behind what waits; an error result leaves everything but the answer. -/
theorem access_of_onSeq {i : Instr} {role : Role} {n : Nat} {f : Seq → SeqResult} {s t : State} {e e' : Seq}
    (h : onSeq role n f s = .next t) (hrun : RunsStep s.par i role f) (hrow : isDispatchRow i = false)
    (he : s.seqs[n]? = some e) (he' : t.seqs[n]? = some e') :
    ∃ r, (r = f e ∨ Raises e r) ∧ e' = r.seq ∧ t.resp.status = some r.status ∧ t.resp.tx = r.tx ∧
      t.handover = s.handover ++ r.tx ∧
      (t.resp.status ≠ some .ok → e' = e ∧ t.resp.tx = [] ∧ t.handover = s.handover) := by
  obtain ⟨r, hr, rfl⟩ := result_of_onSeq h he
  obtain rfl := eq_seq_of_commit he he'
  refine ⟨r, hr, rfl, rfl, rfl, rfl, fun hstatus => ?_⟩
  have hne : r.status ≠ .ok := fun hok => hstatus (congrArg some hok)
  have hraises : Raises e r := by
    rcases hr with rfl | hraises
    · exact raises_of_runsStep hrun hrow hne
    · exact hraises
  obtain ⟨st, _, rfl⟩ := hraises
  exact ⟨rfl, rfl, List.append_nil _⟩

section Results

variable {p : Params} {e : Seq} {r : SeqResult}

/-- I.OPEN writes `state` alone and emits one record where it answers OK (R172). -/
theorem access_openStep {dst : Port} (h : r = openStep p dst e ∨ Raises e r) :
    r.seq = { e with state := r.seq.state } ∧ (r.status = .ok → r.tx.length = 1) := by
  rcases h.elim (fun h => h ▸ openStep_cases p dst e) .inl with ⟨st, hst, rfl⟩ | ⟨_, _, rfl⟩
  · exact ⟨rfl, fun hok => absurd hok hst⟩
  · exact ⟨rfl, fun _ => rfl⟩

/-- I.SEND writes `snd_seq` alone and emits one record where it answers OK (R173). -/
theorem access_sendStep {dst : Port} {payload : List Byte} (h : r = sendStep p dst payload e ∨ Raises e r) :
    r.seq = { e with sndSeq := r.seq.sndSeq } ∧ (r.status = .ok → r.tx.length = 1) := by
  rcases h.elim (fun h => h ▸ sendStep_cases p dst payload e) .inl with ⟨st, hst, rfl⟩ | ⟨_, _, rfl⟩
  · exact ⟨rfl, fun hok => absurd hok hst⟩
  · exact ⟨rfl, fun _ => rfl⟩

/-- I.CLOSE writes `state` alone and emits one record where it answers OK (R174). -/
theorem access_closeStep {dst : Port} (h : r = closeStep p dst e ∨ Raises e r) :
    r.seq = { e with state := r.seq.state } ∧ (r.status = .ok → r.tx.length = 1) := by
  rcases h.elim (fun h => h ▸ closeStep_cases p dst e) .inl with ⟨st, hst, rfl⟩ | ⟨_, _, rfl⟩
  · exact ⟨rfl, fun hok => absurd hok hst⟩
  · exact ⟨rfl, fun _ => rfl⟩

/-- I.EXPIRE writes `state` alone and emits nothing (R175). -/
theorem access_expireStep (h : r = expireStep e ∨ Raises e r) :
    r.seq = { e with state := r.seq.state } ∧ r.tx = [] := by
  rcases h.elim (fun h => h ▸ expireStep_cases e) .inl with ⟨st, _, rfl⟩ | ⟨_, rfl⟩
  · exact ⟨rfl, rfl⟩
  · exact ⟨rfl, rfl⟩

theorem initiatorReceives_of_result {w : Wire} (h : r = receiveOf .initiator p w e ∨ Raises e r) :
    InitiatorReceives p w e r := by
  rcases h with rfl | hraises
  · exact initiatorReceives p w e
  · exact .raised hraises

theorem responderReceives_of_result {w : Wire} (h : r = receiveOf .responder p w e ∨ Raises e r) :
    ResponderReceives p w e r := by
  rcases h with rfl | hraises
  · exact responderReceives p w e
  · exact .raised hraises

/-- I.RECV writes `state` and `rcv_ack` alone and emits at most one record (R176). -/
theorem access_of_initiatorReceives {w : Wire} (h : InitiatorReceives p w e r) :
    r.seq = { e with state := r.seq.state, rcvAck := r.seq.rcvAck } ∧ r.tx.length ≤ 1 := by
  cases h with
  | raised hraises =>
    obtain ⟨_, _, rfl⟩ := hraises
    exact ⟨rfl, Nat.zero_le 1⟩
  | inert | ack | dataSilent | finAcked | bareAck => exact ⟨rfl, Nat.zero_le 1⟩
  | synAck | data | fin => exact ⟨rfl, le_rfl⟩

/-- R.RECV writes the four registers alone and emits at most two records, and two only under EAGER (R211, R216). -/
theorem access_of_responderReceives {w : Wire} (h : ResponderReceives p w e r) :
    r.seq = { e with state := r.seq.state, sndSeq := r.seq.sndSeq, rcvAck := r.seq.rcvAck, finOwed := r.seq.finOwed } ∧
    r.tx.length ≤ 2 ∧ (r.tx.length = 2 → p.finPolicy = .eager) := by
  cases h with
  | raised hraises =>
    obtain ⟨_, _, rfl⟩ := hraises
    exact ⟨rfl, by simp, by simp⟩
  | inert | ack | finAcked | syn | data | finLazy | owedFin => exact ⟨rfl, by simp, by simp⟩
  | finEager hpolicy => exact ⟨rfl, by simp, fun _ => hpolicy⟩

end Results

/-- Settles O56: each operation's result, as it is written, answered and handed over. -/
theorem registerAccessByOperation : Obligations.RegisterAccessByOperation := by
  intro s t n e e' he he'
  refine ⟨fun dst h => ?_, fun dst pl h => ?_, fun dst h => ?_, fun h => ?_, fun w h => ?_, fun w h => ?_⟩
  · obtain ⟨r, hr, rfl, hstatus, htx, _, herror⟩ := access_of_onSeq (i := .iOpen n dst) h (.openCommand rfl) rfl he he'
    obtain ⟨hkeeps, hcount⟩ := access_openStep hr
    exact ⟨hkeeps, fun hok => htx ▸ hcount (Option.some.inj (hstatus ▸ hok)), herror⟩
  · obtain ⟨r, hr, rfl, hstatus, htx, _, herror⟩ :=
      access_of_onSeq (i := .iSend n dst pl) (onSeqWithin_next h).2 (.sendCommand rfl) rfl he he'
    obtain ⟨hkeeps, hcount⟩ := access_sendStep hr
    exact ⟨hkeeps, fun hok => htx ▸ hcount (Option.some.inj (hstatus ▸ hok)), herror⟩
  · obtain ⟨r, hr, rfl, hstatus, htx, _, herror⟩ :=
      access_of_onSeq (i := .iClose n dst) h (.closeCommand rfl) rfl he he'
    obtain ⟨hkeeps, hcount⟩ := access_closeStep hr
    exact ⟨hkeeps, fun hok => htx ▸ hcount (Option.some.inj (hstatus ▸ hok)), herror⟩
  · obtain ⟨r, hr, rfl, _, htx, hhandover, herror⟩ :=
      access_of_onSeq (i := .iExpire n) h (.expireCommand rfl) rfl he he'
    obtain ⟨hkeeps, hnone⟩ := access_expireStep hr
    rw [hnone] at htx hhandover
    exact ⟨hkeeps, htx, hhandover.trans (List.append_nil _), fun hstatus => (herror hstatus).1⟩
  · obtain ⟨r, hr, rfl, hstatus, htx, _, herror⟩ :=
      access_of_onSeq (i := .iRecv n w) (onSeqWithin_next h).2 (.receive .initiator w) rfl he he'
    obtain ⟨hkeeps, hcount⟩ := access_of_initiatorReceives (initiatorReceives_of_result hr)
    exact ⟨hkeeps, htx ▸ hcount, herror⟩
  · obtain ⟨r, hr, rfl, hstatus, htx, _, herror⟩ :=
      access_of_onSeq (i := .rRecv n w) (onSeqWithin_next h).2 (.receive .responder w) rfl he he'
    obtain ⟨hkeeps, hcount⟩ := access_of_responderReceives (responderReceives_of_result hr)
    exact ⟨hkeeps, htx ▸ hcount.1, htx ▸ hcount.2, herror⟩

/-! ### CLOSED (R180, R225) -/

/-- In CLOSED no case of the Initiator but the inert one has its label. -/
theorem inert_of_initiatorReceives {p : Params} {w : Wire} {e : Seq} {r : SeqResult} (h : InitiatorReceives p w e r)
    (hclosed : e.state = .closed) : r.seq = e ∧ r.tx = [] := by
  cases h with
  | raised hraises =>
    obtain ⟨_, _, rfl⟩ := hraises
    exact ⟨rfl, rfl⟩
  | inert => exact ⟨rfl, rfl⟩
  | synAck hstate | ack hstate | dataSilent _ hstate | data _ _ hstate | finAcked hstate =>
    rw [hclosed] at hstate
    cases hstate
  | fin _ _ hstate | bareAck _ hstate => exact absurd hclosed hstate

/-- In CLOSED, with no FIN owed, no case of the Responder but the inert one has its label. -/
theorem inert_of_responderReceives {p : Params} {w : Wire} {e : Seq} {r : SeqResult} (h : ResponderReceives p w e r)
    (hclosed : e.state = .closed) (hnone : e.finOwed = false) : r.seq = e ∧ r.tx = [] := by
  cases h with
  | raised hraises =>
    obtain ⟨_, _, rfl⟩ := hraises
    exact ⟨rfl, rfl⟩
  | inert => exact ⟨rfl, rfl⟩
  | syn hstate | ack hstate | data _ _ hstate | finLazy _ _ _ hstate | finEager _ _ _ hstate | finAcked hstate =>
    rw [hclosed] at hstate
    cases hstate
  | owedFin howed =>
    rw [hnone] at howed
    cases howed

/-- Settles O53: the result writes back the sequencer it found. -/
theorem closedIsInert : Obligations.ClosedIsInert := by
  intro s t n e w he hclosed hnone h
  rw [exec_recvInstr] at h
  obtain ⟨r, hr, rfl⟩ := result_of_onSeq (onSeqWithin_next h).2 he
  have hinert : r.seq = e ∧ r.tx = [] := by
    cases hrole : e.role with
    | initiator =>
      rw [hrole] at hr
      exact inert_of_initiatorReceives (initiatorReceives_of_result hr) hclosed
    | responder =>
      rw [hrole] at hr
      exact inert_of_responderReceives (responderReceives_of_result hr) hclosed
        (hnone hrole)
  obtain ⟨hseq, htx⟩ := hinert
  obtain ⟨hn, rfl⟩ := List.getElem?_eq_some_iff.mp he
  refine ⟨?_, ?_, rfl, htx⟩
  · rw [commit_seqs, hseq, List.set_getElem_self]
  · rw [commit_handover, htx, List.append_nil]

/-! ### The fields a receive operation reads (R307) -/

/-- The Initiator's list reads the flags, `seq`, `src_port` and the payload's byte count, under the default
`BARE_ACK_UPDATE`. -/
theorem rowIC0_congr {p : Params} (e : Seq) {g g' : Segment} (hbare : p.bareAck = .identity)
    (hflags : g'.flags = g.flags) (hseq : g'.seq = g.seq) (hport : g'.srcPort = g.srcPort)
    (hlen : g'.payload.length = g.payload.length) : rowIC0 p e g' = rowIC0 p e g := by
  have h1 : actIC1 p e g' = actIC1 p e g := by rw [actIC1, actIC1, hseq, hport]
  have h3 : actIC3 p e g' = actIC3 p e g := by rw [actIC3, actIC3, byteCount, byteCount, hlen, hseq, hport]
  have h5 : actIC5 p e g' = actIC5 p e g := by rw [actIC5, actIC5, hseq, hport]
  have h6 : actIC6 p e g' = actIC6 p e g := by rw [actIC6_identity e g' hbare, actIC6_identity e g hbare]
  simp only [rowIC0, rowIC1, rowIC2, rowIC3, rowIC4, rowIC5, rowIC6, hflags, h1, h3, h5, h6]

/-- The Responder's list reads ACK, PSH, SYN, FIN, `seq`, `ack`, `src_port` and the payload's byte count. -/
theorem rowRC1_congr (p : Params) (e : Seq) {g g' : Segment} (hseq : g'.seq = g.seq) (hport : g'.srcPort = g.srcPort)
    (hlen : g'.payload.length = g.payload.length) (hno : g'.ack = g.ack) (hack : g'.flags.ack = g.flags.ack)
    (hpsh : g'.flags.psh = g.flags.psh) (hsyn : g'.flags.syn = g.flags.syn) (hfin : g'.flags.fin = g.flags.fin) :
    rowRC1 p e g' = rowRC1 p e g := by
  have h1 : actRC1 p e g' = actRC1 p e g := by rw [actRC1, actRC1, hseq, hport]
  have h2 : actRC2 p e g' = actRC2 p e g := by rw [actRC2, actRC2, byteCount, byteCount, hlen, hseq, hport]
  have h4 : actRC4 p e g' = actRC4 p e g := by rw [actRC4, actRC4, hseq, hport]
  have h5 : actRC5 p e g' = actRC5 p e g := by rw [actRC5, actRC5, hport]
  simp only [rowRC1, rowRC1a, rowRC2, rowRC3, rowRC4, rowRC6, rowRC5, hack, hpsh, hsyn, hfin, hno, h1, h2, h4, h5]

/-- Settles O58: both lists, and the payload bound, are functions of the fields they read. -/
theorem unreadFieldsDoNotMatter : Obligations.UnreadFieldsDoNotMatter := by
  intro s n w w' g g' hw hw' hseq hport hlen
  refine ⟨fun hbare hflags => ?_, fun hno hack hpsh hsyn hfin => ?_⟩
  · have hrow : (fun e => rowIC0 s.par e g') = fun e => rowIC0 s.par e g :=
      funext fun e => rowIC0_congr e hbare hflags hseq hport hlen
    rw [exec_iRecv_of_codecDecode n s hw, exec_iRecv_of_codecDecode n s hw', onInitiatorRow, onInitiatorRow, hlen,
      hrow]
  · have hrow : (fun e => rowRC1 s.par e g') = fun e => rowRC1 s.par e g :=
      funext fun e => rowRC1_congr s.par e hseq hport hlen hno hack hpsh hsyn hfin
    rw [exec_rRecv_of_codecDecode n s hw, exec_rRecv_of_codecDecode n s hw', onResponderRow, onResponderRow, hlen,
      hrow]

end Sys2Proof.Proofs

/-! PROOF. The link, operation by operation (43_substrate.md): registration and routing (R241, R242, R80), a delivery as
its owner's receive operation (R244), what a step takes (R245, R246), and a drain as its deliveries (R245). -/

namespace Sys2Proof.Proofs

open Sys2Proof Sys2Proof.Machine Sys2Proof.Laws

/-! ### Registration and routing -/

/-- The same registration again changes nothing (R241). -/
theorem tableSet_tableSet (tab : PortTable) (port : Port) (n : Nat) :
    tableSet (tableSet tab port n) port n = tableSet tab port n := by
  induction tab with
  | nil => simp [tableSet]
  | cons a tab ih =>
    obtain ⟨p, m⟩ := a
    by_cases hlt : port < p
    · simp [tableSet, hlt]
    · by_cases heq : port = p
      · simp [tableSet, heq]
      · simp [tableSet, hlt, heq, ih]

theorem registrable_of_role {role : Role} {n : Nat} {s : State} {e : Seq} (s' : State) (he : s.seqs[n]? = some e)
    (hrole : e.role = role) : registrable role n s s' = .next s' := by
  simp only [registrable, he, hrole, if_true]

/-- A sequencer of the other role is no operand of a registration (log entry 11). -/
theorem registrable_of_ne_role {role : Role} {n : Nat} {s : State} {e : Seq} (s' : State) (he : s.seqs[n]? = some e)
    (hrole : e.role ≠ role) : registrable role n s s' = .refused .illTypedInstance := by
  simp only [registrable, he, hrole, if_false]

theorem exec_nRegi (port : Port) (n : Nat) (s : State) :
    exec (.nRegi port n) s =
      registrable .initiator n s (afterStatus { s with itab := tableSet s.itab port n } .ok) := rfl

theorem exec_nRegr (port : Port) (n : Nat) (s : State) :
    exec (.nRegr port n) s =
      registrable .responder n s (afterStatus { s with rtab := tableSet s.rtab port n } .ok) := rfl

/-- A table after a registration, read at any port. -/
theorem tableGet_tableSet_of_port (tab : PortTable) (port k : Port) (n : Nat) :
    tableGet (tableSet tab port n) k = if k = port then some n else tableGet tab k := by
  simp only [tableGet_tableSet, eq_comm]

/-- Settles O31: the operand's role decides, and the table written is `tableSet`. -/
theorem registrationWritesItsTable : Obligations.RegistrationWritesItsTable := by
  intro s port n e he
  refine ⟨fun hrole => ?_, fun hrole => ?_, fun hrole => ?_, fun hrole => ?_⟩
  · refine ⟨tableSet s.itab port n, registrable_of_role _ he hrole, (tableGet_tableSet_of_port _ port · n), ?_⟩
    rw [exec_nRegi, tableSet_tableSet]
    exact registrable_of_role _ he hrole
  · refine ⟨tableSet s.rtab port n, registrable_of_role _ he hrole, (tableGet_tableSet_of_port _ port · n), ?_⟩
    rw [exec_nRegr, tableSet_tableSet]
    exact registrable_of_role _ he hrole
  · exact registrable_of_ne_role _ he (by simp [hrole])
  · exact registrable_of_ne_role _ he (by simp [hrole])

theorem route_of_rtab {s : State} {port : Port} {n : Nat} (h : tableGet s.rtab port = some n) :
    route s port = some (.responder, n) := by
  simp only [route, h]

theorem route_of_itab {s : State} {port : Port} {n : Nat} (hr : tableGet s.rtab port = none)
    (hi : tableGet s.itab port = some n) : route s port = some (.initiator, n) := by
  simp only [route, hr, hi, Option.map_some]

theorem route_of_none {s : State} {port : Port} (hr : tableGet s.rtab port = none)
    (hi : tableGet s.itab port = none) : route s port = none := by
  simp only [route, hr, hi, Option.map_none]

/-- Settles O33: the three cases of `route`. -/
theorem responderTableFirst : Obligations.ResponderTableFirst :=
  fun _ _ => ⟨fun _ => route_of_rtab, fun _ => route_of_itab, route_of_none⟩

/-! ### One delivery (R244) -/

theorem exec_nDeliver (s : State) : exec .nDeliver s = execNDeliver s := rfl

theorem exec_nDrain (s : State) : exec .nDrain s = execNDrain s := rfl

theorem deliverNext_of_empty {s : State} (hq : s.q = []) : deliverNext s = .nothing :=
  (deliverNext_nothing_iff s).mpr hq

section Delivery

variable {s : State} {r : DeliveryRecord} {rest : List DeliveryRecord}

/-- A record whose port no table knows is dropped (R274). -/
theorem deliverNext_of_no_owner (hq : s.q = r :: rest) (hroute : route s r.dstPort = none) :
    deliverNext s = .delivered { s with q := rest } .unknownDestination := by
  simp only [deliverNext, hq, hroute]

/-- A record with an owner goes to it, the head removed first (R244). -/
theorem deliverNext_of_owner {role : Role} {n : Nat} (hq : s.q = r :: rest)
    (hroute : route s r.dstPort = some (role, n)) :
    deliverNext s = deliverTo role n r.wire { s with q := rest } := by
  simp only [deliverNext, hq, hroute]

/-- Replies fit behind the remaining records exactly where the queue without its head has room for them (R45). -/
theorem fitsBehind_iff_queueHasRoom (s : State) (rest replies : List DeliveryRecord) :
    fitsBehind s rest replies ↔ queueHasRoom { s with q := rest } replies.length = true := by
  cases replies with
  | nil => exact iff_of_true (.inl rfl) rfl
  | cons d replies =>
    rw [List.length_cons, queueHasRoom_succ_iff]
    simp [fitsBehind]

end Delivery

/-- Settles O34: the two deliveries that run no receive operation. -/
theorem deliverWithoutOwner : Obligations.DeliverWithoutOwner := by
  refine fun s => ⟨fun hq => ?_, fun r rest hq hr hi => ?_⟩
  · rw [exec_nDeliver, execNDeliver, deliverNext_of_empty hq]
    rfl
  · rw [exec_nDeliver, execNDeliver, deliverNext_of_no_owner hq (route_of_none hr hi)]
    rfl

/-- Settles O35: the owner's result, committed by its receive operation to the waiting records and by the delivery to the
queue. -/
theorem deliverIsReceiveOperation : Obligations.DeliverIsReceiveOperation := by
  intro s r rest role n e hq hroute hat
  obtain ⟨he, hrole, hown⟩ := hat
  have hdeliver := (deliverNext_of_owner hq hroute).trans (deliverTo_eq (s := { s with q := rest }) he hrole hown)
  refine ⟨fun hover => ?_, fun hwithin => ?_⟩
  · rw [exec_nDeliver, execNDeliver, hdeliver, hover]
    rfl
  · have hreceive : exec (recvInstr n r.wire role) { s with q := rest, handover := [] } =
        .next (State.commit { s with q := rest, handover := [] } n (receiveOf role s.par r.wire e)) := by
      rw [exec_recvInstr, hwithin, onSeqWithin_false]
      exact onSeq_eq he hrole hown
    refine ⟨_, hreceive, fun hfits => ?_, fun hfull => ?_⟩
    · have hroom := (fitsBehind_iff_queueHasRoom s rest _).mp hfits
      rw [commit_handover, List.nil_append] at hroom
      simp only [exec_nDeliver, execNDeliver, hdeliver, hwithin, hroom]
      rfl
    · have hroom := mt (fitsBehind_iff_queueHasRoom s rest _).mpr hfull
      rw [commit_handover, List.nil_append, Bool.not_eq_true] at hroom
      simp only [exec_nDeliver, execNDeliver, hdeliver, hwithin, hroom]
      rfl

/-! ### What a step takes -/

/-- Settles O40: by the three sources of a step, in their order. -/
theorem stepRunsTheDecodedInstruction : Obligations.StepRunsTheDecodedInstruction := by
  refine ⟨fun s rq rest i remaining hhandover hdraining hinbox hdec => ?_, fun s hhandover hdraining => ?_⟩
  · simp only [step, hhandover, hdraining, stepRequest, hinbox, hdec]
    rfl
  · simp only [step, hhandover, hdraining, if_true]

/-- Settles O41: a waiting record is the operand of an N.XMIT. -/
theorem handoverGoesFirst : Obligations.HandoverGoesFirst := by
  intro s r rest hhandover
  have hstep : step s = exec (.nXmit r.wire r.srcPort r.dstPort) { s with handover := rest } := by
    simp only [step, hhandover]
  rw [hstep]
  exact transmitAppends { s with handover := rest } r.wire r.srcPort r.dstPort

/-- Numbers of no command decode to a reserved instruction or to none (R110). -/
theorem decodeCommand_of_ne {op : BitVec 4} (n : Nat) (dst : Port) (payload : List Byte) (h4 : op ≠ 4) (h5 : op ≠ 5)
    (h6 : op ≠ 6) (h7 : op ≠ 7) :
    decodeCommand n op dst payload = .error .notACommand ∨
    ∃ i, decodeCommand n op dst payload = .ok i ∧ ∀ s, exec i s = .next (afterStatus s .invalidState) := by
  unfold decodeCommand
  split
  · exact .inr ⟨_, rfl, fun _ => rfl⟩
  · exact .inr ⟨_, rfl, fun _ => rfl⟩
  · rename_i h; exact absurd (BitVec.eq_of_toNat_eq h) h4
  · rename_i h; exact absurd (BitVec.eq_of_toNat_eq h) h5
  · rename_i h; exact absurd (BitVec.eq_of_toNat_eq h) h6
  · rename_i h; exact absurd (BitVec.eq_of_toNat_eq h) h7
  · exact .inr ⟨_, rfl, fun _ => rfl⟩
  · exact .inl rfl

/-- Settles O15: a reserved instruction and a number of another interface are answered alike. -/
theorem reservedNumbersAnswerInvalidState : Obligations.ReservedNumbersAnswerInvalidState := by
  refine ⟨fun _ => ⟨rfl, rfl, rfl⟩, fun s n op dst payload rest hhandover hdraining hinbox h4 h5 h6 h7 => ?_⟩
  simp only [step, hhandover, hdraining, stepRequest, hinbox, decodeRequest]
  rcases decodeCommand_of_ne n dst payload h4 h5 h6 h7 with hdec | ⟨i, hdec, hexec⟩
  · simp only [hdec]
    rfl
  · simp only [hdec]
    exact hexec _

/-! ### A drain is its deliveries (R245) -/

/-- A turn of the drain after a delivery that N.DELIVER makes. -/
theorem exec_nDrain_of_next {s t : State} (h : exec .nDeliver s = .next t) :
    exec .nDrain s = .next { t with draining := !t.q.isEmpty } := by
  rw [exec_nDeliver] at h
  rw [exec_nDrain, execNDrain_eq, h]

theorem exec_nDrain_of_refused {s : State} {r : Refusal} (h : exec .nDeliver s = .refused r) :
    exec .nDrain s = .refused r := by
  rw [exec_nDeliver] at h
  rw [exec_nDrain, execNDrain_eq, h]

theorem exec_nDrain_of_empty {s : State} (hq : s.q = []) :
    exec .nDrain s = .next (afterStatus { s with draining := false } .ok) := by
  rw [exec_nDrain, execNDrain, deliverNext_of_empty hq]
  rfl

/-- While a drain is under way a step is its next turn. -/
theorem step_of_draining {s : State} (hhandover : s.handover = []) (hdraining : s.draining = true) :
    step s = exec .nDrain s := stepRunsTheDecodedInstruction.2 s hhandover hdraining

theorem steps_succ_of_next {s t : State} (k : Nat) (h : step s = .next t) : steps (k + 1) s = steps k t := by
  simp only [steps, h]

theorem steps_succ_of_refused {s : State} {r : Refusal} (k : Nat) (h : step s = .refused r) :
    steps (k + 1) s = .refused r := by
  simp only [steps, h]

/-- N.DELIVER keeps the waiting records and the flag of a drain. -/
theorem exec_nDeliver_frame {s t : State} (h : exec .nDeliver s = .next t) :
    t.handover = s.handover ∧ t.draining = s.draining := by
  obtain ⟨_, hlink, hdrain, _, _⟩ := linkStateFrame .nDeliver s t h
  exact ⟨hlink rfl, hdrain (by decide)⟩

/-- `k` deliveries are `k` steps of a drain under way, and a refused delivery after them is refused there. -/
theorem steps_of_deliveries (k : Nat) {s t : State} (hhandover : s.handover = []) (hdraining : s.draining = true)
    (hdel : deliveries k s t) :
    (0 < k → steps k s = .next { t with draining := !t.q.isEmpty }) ∧
    (∀ r, exec .nDeliver t = .refused r → steps (k + 1) s = .refused r) := by
  induction k generalizing s with
  | zero =>
    obtain rfl : t = s := hdel
    exact ⟨nofun, fun r hr =>
      steps_succ_of_refused 0 ((step_of_draining hhandover hdraining).trans (exec_nDrain_of_refused hr))⟩
  | succ k ih =>
    obtain ⟨_, s', hs', hrest⟩ := hdel
    obtain ⟨hhandover', hdraining'⟩ := exec_nDeliver_frame hs'
    rw [hhandover] at hhandover'
    rw [hdraining] at hdraining'
    have hstep := (step_of_draining hhandover hdraining).trans (exec_nDrain_of_next hs')
    have hgoes (hq : s'.q ≠ []) : step s = .next s' := by
      have hflag : (!s'.q.isEmpty) = s'.draining := by simp [hdraining', hq]
      rw [hstep, hflag]
    constructor
    · intro _
      cases k with
      | zero =>
        obtain rfl : t = s' := hrest
        exact steps_succ_of_next 0 hstep
      | succ k =>
        exact (steps_succ_of_next _ (hgoes hrest.1)).trans ((ih hhandover' hdraining' hrest).1 (Nat.succ_pos k))
    · intro r hr
      have hq : s'.q ≠ [] := by
        intro hq
        cases k with
        | zero =>
          obtain rfl : t = s' := hrest
          rw [(deliverWithoutOwner t).1 hq] at hr
          cases hr
        | succ k => exact hrest.1 hq
      exact (steps_succ_of_next _ (hgoes hq)).trans ((ih hhandover' hdraining' hrest).2 r hr)

/-- Settles O38: one turn is one N.DELIVER, and the turns by induction on the number of deliveries. -/
theorem drainRepeatsDeliver : Obligations.DrainRepeatsDeliver :=
  ⟨fun _ => exec_nDrain_of_empty, fun _ _ _ => exec_nDrain_of_next, fun _ _ => exec_nDrain_of_refused,
    fun k _ _ => steps_of_deliveries k⟩

end Sys2Proof.Proofs

/-! PROOF. A drain ends (43_substrate.md R245, log entry 15). Every record of the queue weighs 1, or 2 where it can draw a
reply without moving a sequencer on (a segment with PSH or FIN), and every sequencer weighs what its own progress can
still add to the queue; each delivery makes the sum smaller. Then the handshake through the link (the spec's T3). -/

namespace Sys2Proof.Proofs

open Sys2Proof Sys2Proof.Machine Sys2Proof.Laws

/-! ### The weights -/

/-- What a queued wire can still cause: 2 with PSH or FIN, which a sequencer may answer in place, else 1. -/
def wireWeight (w : Wire) : Nat :=
  match codecDecode w with
  | some g => if g.flags.psh || g.flags.fin then 2 else 1
  | none => 1

/-- What an Initiator's progress can still add: one ACK for its handshake. -/
def initiatorWeight (c : ConnState) : Nat := if preEst c then 1 else 0

/-- What a Responder's progress can still add by its label: its SYN+ACK, and its FIN of weight 2. -/
def responderLabelWeight (c : ConnState) : Nat :=
  if c = .listening then 3 else if c = .synReceived ∨ estLike c then 2 else 0

/-- What a FIN that is owed can still add. -/
def owedWeight (owed : Bool) : Nat := if owed then 2 else 0

/-- What a Responder's progress can still add: by its label, and the FIN it may owe. -/
def responderWeight (e : Seq) : Nat := responderLabelWeight e.state + owedWeight e.finOwed

/-- The weight of a sequencer. -/
def seqWeight (e : Seq) : Nat :=
  match e.role with
  | .initiator => initiatorWeight e.state
  | .responder => responderWeight e

/-- The weight of the queue's records and of the sequencers. -/
def recordsWeight (l : List DeliveryRecord) : Nat := (l.map fun d => wireWeight d.wire).sum

def stateWeight (s : State) : Nat := recordsWeight s.q + (s.seqs.map seqWeight).sum

theorem wireWeight_of_codecDecode {w : Wire} {g : Segment} (h : codecDecode w = some g) :
    wireWeight w = if g.flags.psh || g.flags.fin then 2 else 1 := by
  simp only [wireWeight, h]

theorem wireWeight_pos (w : Wire) : 0 < wireWeight w := by
  unfold wireWeight
  split
  · split <;> decide
  · decide

theorem wireWeight_le (w : Wire) : wireWeight w ≤ 2 := by
  unfold wireWeight
  split
  · split <;> decide
  · decide

theorem wireWeight_of_psh {w : Wire} {g : Segment} (h : codecDecode w = some g) (hpsh : g.flags.psh = true) :
    wireWeight w = 2 := by
  rw [wireWeight_of_codecDecode h, hpsh]
  rfl

theorem wireWeight_of_fin {w : Wire} {g : Segment} (h : codecDecode w = some g) (hfin : g.flags.fin = true) :
    wireWeight w = 2 := by
  rw [wireWeight_of_codecDecode h, hfin, Bool.or_true]
  rfl

theorem wireWeight_builtOut (p : Params) (e : Seq) (f : FlagSet) (dst : Port) (sq ak : Word32) (pl : List Byte) :
    wireWeight (builtOut p e f dst sq ak pl).wire = if f.psh || f.fin then 2 else 1 :=
  wireWeight_of_codecDecode (codecDecode_codecEncode _)

@[simp] theorem recordsWeight_nil : recordsWeight [] = 0 := rfl

@[simp] theorem recordsWeight_cons (d : DeliveryRecord) (l : List DeliveryRecord) :
    recordsWeight (d :: l) = wireWeight d.wire + recordsWeight l := by
  simp [recordsWeight]

@[simp] theorem recordsWeight_append (l l' : List DeliveryRecord) :
    recordsWeight (l ++ l') = recordsWeight l + recordsWeight l' := by
  simp [recordsWeight]

/-- A reply that a sequencer emits. -/
theorem recordsWeight_reply (p : Params) (e : Seq) (f : FlagSet) (dst : Port) (sq ak : Word32) (pl : List Byte) :
    recordsWeight [builtOut p e f dst sq ak pl] = if f.psh || f.fin then 2 else 1 := by
  rw [recordsWeight_cons, wireWeight_builtOut, recordsWeight_nil, Nat.add_zero]

theorem responderLabelWeight_of_estLike {c : ConnState} (h : estLike c = true) : responderLabelWeight c = 2 := by
  rcases (estLike_iff c).mp h with rfl | rfl <;> decide

theorem seqWeight_le (e : Seq) : seqWeight e ≤ 5 := by
  have hinitiator (c : ConnState) : initiatorWeight c ≤ 5 := by cases c <;> decide
  have hlabel (c : ConnState) : responderLabelWeight c ≤ 3 := by cases c <;> decide
  have howed (owed : Bool) : owedWeight owed ≤ 2 := by cases owed <;> decide
  unfold seqWeight
  split
  · exact hinitiator e.state
  · exact Nat.add_le_add (hlabel e.state) (howed e.finOwed)

/-- The model's bound on a drain's deliveries is a bound on the weight. -/
theorem stateWeight_le_drainBound (s : State) : stateWeight s ≤ drainBound s := by
  have hq : recordsWeight s.q ≤ s.q.length * 2 := by
    simpa [recordsWeight] using List.sum_le_card_nsmul (s.q.map fun d => wireWeight d.wire) 2
      (by simpa using fun (d : DeliveryRecord) _ => wireWeight_le d.wire)
  have hseqs : (s.seqs.map seqWeight).sum ≤ s.seqs.length * 5 := by
    simpa using List.sum_le_card_nsmul (s.seqs.map seqWeight) 5 (by simpa using fun e _ => seqWeight_le e)
  unfold stateWeight drainBound
  omega

theorem stateWeight_pos {s : State} (hq : s.q ≠ []) : 0 < stateWeight s := by
  obtain ⟨d, rest, hq⟩ := List.exists_cons_of_ne_nil hq
  have := wireWeight_pos d.wire
  rw [stateWeight, hq, recordsWeight_cons]
  omega

/-! ### A delivery makes the weight smaller -/

/-- What I.RECV emits weighs less than the received wire and the sequencer's progress. -/
theorem weight_of_initiatorReceives {p : Params} {w : Wire} {e : Seq} {r : SeqResult}
    (h : InitiatorReceives p w e r) :
    recordsWeight r.tx + initiatorWeight r.seq.state < wireWeight w + initiatorWeight e.state := by
  have hpos := wireWeight_pos w
  have hack : (if flagsAck.psh || flagsAck.fin then 2 else 1) = 1 := rfl
  cases h with
  | raised hraises =>
    obtain ⟨_, _, rfl⟩ := hraises
    simpa using hpos
  | inert | bareAck => simpa using hpos
  | synAck hstate =>
    have hbefore : initiatorWeight e.state = 1 := if_pos hstate
    have hafter : initiatorWeight .established = 0 := rfl
    rw [done_tx, done_seq, recordsWeight_reply, hack, hafter, hbefore]
    omega
  | data hdec hpsh =>
    have hafter : initiatorWeight .dataReceived = 0 := rfl
    rw [done_tx, done_seq, recordsWeight_reply, hack, hafter, wireWeight_of_psh hdec hpsh]
    omega
  | fin hdec hfin =>
    have hafter : initiatorWeight .timeWait = 0 := rfl
    rw [done_tx, done_seq, recordsWeight_reply, hack, hafter, wireWeight_of_fin hdec hfin]
    omega
  | ack =>
    have hafter : initiatorWeight .established = 0 := rfl
    rw [done_tx, done_seq, recordsWeight_nil, hafter]
    omega
  | dataSilent =>
    have hafter : initiatorWeight .dataReceived = 0 := rfl
    rw [done_tx, done_seq, recordsWeight_nil, hafter]
    omega
  | finAcked =>
    have hafter : initiatorWeight .finWait2 = 0 := rfl
    rw [done_tx, done_seq, recordsWeight_nil, hafter]
    omega

/-- What R.RECV emits weighs less than the received wire and the sequencer's progress. -/
theorem weight_of_responderReceives {p : Params} {w : Wire} {e : Seq} {r : SeqResult}
    (h : ResponderReceives p w e r) :
    recordsWeight r.tx + responderWeight r.seq < wireWeight w + responderWeight e := by
  have hpos := wireWeight_pos w
  have hack : (if flagsAck.psh || flagsAck.fin then 2 else 1) = 1 := rfl
  have hsynAck : (if flagsSynAck.psh || flagsSynAck.fin then 2 else 1) = 1 := rfl
  have hfinReply : (if flagsFin.psh || flagsFin.fin then 2 else 1) = 2 := rfl
  have hsynReceived : responderLabelWeight .synReceived = 2 := rfl
  have hestablished : responderLabelWeight .established = 2 := rfl
  have hdataReceived : responderLabelWeight .dataReceived = 2 := rfl
  have hcloseWait : responderLabelWeight .closeWait = 0 := rfl
  have hlastAck : responderLabelWeight .lastAck = 0 := rfl
  have hclosed : responderLabelWeight .closed = 0 := rfl
  have howes : owedWeight true = 2 := rfl
  have howesNot : owedWeight false = 0 := rfl
  unfold responderWeight
  cases h with
  | raised hraises =>
    obtain ⟨_, _, rfl⟩ := hraises
    rw [raise_tx, raise_seq, recordsWeight_nil]
    omega
  | inert =>
    simp only [done_tx, done_seq, recordsWeight_nil]
    omega
  | syn hstate =>
    have hbefore : responderLabelWeight e.state = 3 := by rw [hstate]; rfl
    simp only [done_tx, done_seq, recordsWeight_reply, hsynAck, hsynReceived, hbefore]
    omega
  | ack hstate =>
    have hbefore : responderLabelWeight e.state = 2 := by rw [hstate]; rfl
    simp only [done_tx, done_seq, recordsWeight_nil, hestablished, hbefore]
    omega
  | data hdec hpsh hstate =>
    simp only [done_tx, done_seq, recordsWeight_reply, hack, hdataReceived, wireWeight_of_psh hdec hpsh,
      responderLabelWeight_of_estLike hstate]
    omega
  | finLazy _ hdec hfin hstate =>
    simp only [done_tx, done_seq, recordsWeight_reply, hack, hcloseWait, wireWeight_of_fin hdec hfin,
      responderLabelWeight_of_estLike hstate, howes]
    omega
  | finEager _ hdec hfin hstate =>
    simp only [done_tx, done_seq, recordsWeight_cons, recordsWeight_nil, wireWeight_builtOut, hack, hfinReply, hlastAck,
      wireWeight_of_fin hdec hfin, responderLabelWeight_of_estLike hstate, howesNot]
    omega
  | finAcked hstate =>
    simp only [done_tx, done_seq, recordsWeight_nil, hclosed]
    omega
  | owedFin howed =>
    simp only [done_tx, done_seq, recordsWeight_reply, hfinReply, hlastAck, howed, howes, howesNot]
    omega

/-- What a receive operation emits weighs less than the received wire and the sequencer's progress. -/
theorem weight_of_receiveOf (p : Params) (w : Wire) (e : Seq) :
    recordsWeight (receiveOf e.role p w e).tx + seqWeight (receiveOf e.role p w e).seq <
      wireWeight w + seqWeight e := by
  have hrole : (receiveOf e.role p w e).seq.role = e.role :=
    congrArg SeqConfig.role (keepsFrame_receiveOf e.role p w e).1
  rw [seqWeight, seqWeight, hrole]
  cases e.role with
  | initiator => exact weight_of_initiatorReceives (initiatorReceives p w e)
  | responder => exact weight_of_responderReceives (responderReceives p w e)

/-- A sum after one element is replaced. -/
theorem sum_map_set {α : Type} (f : α → Nat) (l : List α) (n : Nat) (a b : α) (h : l[n]? = some a) :
    ((l.set n b).map f).sum + f a = (l.map f).sum + f b := by
  induction l generalizing n with
  | nil => cases h
  | cons x l ih =>
    cases n with
    | zero =>
      cases h
      simp only [List.set_cons_zero, List.map_cons, List.sum_cons]
      omega
    | succ n =>
      have := ih n h
      simp only [List.set_cons_succ, List.map_cons, List.sum_cons]
      omega

/-- Every delivery makes the weight smaller. -/
theorem stateWeight_of_deliveryEffect {s t : State} (h : DeliveryEffect s t) : stateWeight t < stateWeight s := by
  cases h with
  | @dropped r rest hq =>
    have hpos := wireWeight_pos r.wire
    simp only [stateWeight, hq, recordsWeight_cons]
    omega
  | @received r rest n e hq howner he hown =>
    have hreceive := weight_of_receiveOf s.par r.wire e
    have hsum := sum_map_set seqWeight s.seqs n e (receiveOf e.role s.par r.wire e).seq he
    simp only [stateWeight, hq, recordsWeight_cons, recordsWeight_append]
    omega

/-! ### Where no delivery is refused -/

/-- Unbounded capacities, typed canonical tables, and a label of its role in every sequencer. -/
def DrainReady (s : State) : Prop := unbounded s ∧ tablesOk s ∧ labelsOk s

/-- Every receive operation leaves its sequencer in a label of its role. -/
theorem ownState_of_receiveOf (p : Params) (w : Wire) {e : Seq} (hown : ownState e.role e.state = true) :
    ownState e.role (receiveOf e.role p w e).seq.state = true := by
  cases hrole : e.role with
  | initiator =>
    rw [hrole] at hown
    have h := initiatorReceives p w e
    rw [receiveOf]
    generalize initiatorReceive p w e = r at h
    cases h with
    | raised hraises =>
      obtain ⟨_, _, rfl⟩ := hraises
      exact hown
    | inert | bareAck => exact hown
    | synAck | ack | dataSilent | data | finAcked | fin => rfl
  | responder =>
    rw [hrole] at hown
    have h := responderReceives p w e
    rw [receiveOf]
    generalize responderReceive p w e = r at h
    cases h with
    | raised hraises =>
      obtain ⟨_, _, rfl⟩ := hraises
      exact hown
    | inert => exact hown
    | syn | ack | data | finLazy | finEager | finAcked | owedFin => rfl

theorem labelsOk_of_deliveryEffect {s t : State} (h : DeliveryEffect s t) (hok : labelsOk s) : labelsOk t := by
  cases h with
  | dropped => exact hok
  | @received r rest n e hq howner he hown =>
    intro e' he'
    rcases List.mem_or_eq_of_mem_set he' with hmem | rfl
    · exact hok e' hmem
    · have hrole := congrArg SeqConfig.role (keepsFrame_receiveOf e.role s.par r.wire e).1
      have hrole' : (receiveOf e.role s.par r.wire e).seq.role = e.role := hrole
      rw [hrole']
      exact ownState_of_receiveOf s.par r.wire hown

/-- A delivery with an owner in a typed table, in its own label and with unbounded capacities is not refused. -/
theorem deliverNext_ne_stopped {s : State} (hready : DrainReady s) (r : Refusal) : deliverNext s ≠ .stopped r := by
  obtain ⟨⟨hpayload, hdepth⟩, ⟨hitab, hrtab⟩, hlabels⟩ := hready
  have howner {role : Role} {tab : PortTable} {port : Port} {n : Nat} (htab : tableOk role tab s.seqs)
      (hget : tableGet tab port = some n) (w : Wire) (rest : List DeliveryRecord) :
      deliverTo role n w { s with q := rest } ≠ .stopped r := by
    obtain ⟨e, he, hrole⟩ := htab.2 _ (tableGet_mem tab port n hget)
    have hown : ownState role e.state = true := hrole ▸ hlabels e (List.mem_of_getElem? he)
    rw [deliverTo_eq (s := { s with q := rest }) he hrole hown]
    simp [wireOverMax, queueHasRoom, hpayload, hdepth]
  rcases deliverNext_cases s with ⟨_, h⟩ | ⟨d, rest, _, _, h⟩ | ⟨d, rest, role, n, _, hroute, h⟩ <;> rw [h]
  · nofun
  · nofun
  · rcases route_cases s d.dstPort with ⟨m, hget, hm⟩ | ⟨_, m, hget, hm⟩ | ⟨_, _, hm⟩ <;> rw [hroute] at hm <;>
      cases hm
    · exact howner hrtab hget d.wire rest
    · exact howner hitab hget d.wire rest

/-! ### The drain -/

/-- A turn of the drain: on an empty queue its end; else a delivery, or its refusal. -/
theorem exec_nDrain_cases (s : State) :
    (s.q = [] ∧ exec .nDrain s = .next (afterStatus { s with draining := false } .ok)) ∨
    (∃ s' st, DeliveryEffect s s' ∧
      exec .nDrain s = .next (State.answer { s' with draining := !s'.q.isEmpty } st)) ∨
    (∃ r, deliverNext s = .stopped r ∧ exec .nDrain s = .refused r) := by
  cases hd : deliverNext s with
  | nothing =>
    have hq := (deliverNext_nothing_iff s).mp hd
    exact .inl ⟨hq, exec_nDrain_of_empty hq⟩
  | delivered s' st =>
    exact .inr (.inl ⟨s', st, deliveryEffect_of_delivered hd, by rw [exec_nDrain, execNDrain, hd]⟩)
  | stopped r => exact .inr (.inr ⟨r, rfl, by rw [exec_nDrain, execNDrain, hd]⟩)

/-- The next step of a drain is a turn of it; a request for one leaves the inbox. -/
theorem step_of_drainNext {s : State} (h : drainNext s) : ∃ inbox, step s = exec .nDrain { s with inbox := inbox } := by
  obtain ⟨hhandover, hdraining | ⟨rest, hinbox⟩⟩ := h
  · exact ⟨s.inbox, step_of_draining hhandover hdraining⟩
  · by_cases hdraining : s.draining = true
    · exact ⟨s.inbox, step_of_draining hhandover hdraining⟩
    · exact ⟨rest, stepRunsTheDecodedInstruction.1 s .drainAll rest .nDrain none hhandover
        (Bool.eq_false_iff.mpr hdraining) hinbox rfl⟩

/-- A delivery keeps the waiting records, and what its drain needs for the next one. -/
theorem handover_of_deliveryEffect {s t : State} (h : DeliveryEffect s t) : t.handover = s.handover := by
  cases h <;> rfl

theorem drainReady_of_deliveryEffect {s t : State} (h : DeliveryEffect s t) (hready : DrainReady s) : DrainReady t := by
  obtain ⟨hunbounded, htables, hlabels⟩ := hready
  have heffect : ExecEffect .nDeliver s (t.answer .ok) := .delivered rfl h
  have hpar : t.par = s.par := (par_inbox_of_execEffect heffect).1
  have htables' := tablesOk_of_execEffect heffect htables
  exact ⟨by rwa [unbounded, hpar], htables', labelsOk_of_deliveryEffect h hlabels⟩

/-- A drain ends, with an empty queue or a refusal, in no more steps than the weight of its state (one on an empty
queue); a state ready for it sees no refusal. -/
theorem drain_ends (s : State) (h : drainNext s) :
    ∃ k, 0 < k ∧ k ≤ max 1 (stateWeight s) ∧
      ((∃ t, steps k s = .next t ∧ t.draining = false ∧ t.q = []) ∨
        ((∃ r, steps k s = .refused r) ∧ ¬ DrainReady s)) := by
  induction hw : stateWeight s using Nat.strong_induction_on generalizing s with
  | _ weight ih =>
    subst hw
    obtain ⟨inbox, hstep⟩ := step_of_drainNext h
    rcases exec_nDrain_cases { s with inbox := inbox } with ⟨hq, hexec⟩ | ⟨s', st, heffect, hexec⟩ | ⟨r, hstop, hexec⟩
    · exact ⟨1, Nat.one_pos, le_max_left _ _, .inl ⟨_, steps_succ_of_next 0 (hstep.trans hexec), rfl, hq⟩⟩
    · have hless := stateWeight_of_deliveryEffect heffect
      change stateWeight s' < stateWeight s at hless
      have hfirst (k : Nat) := steps_succ_of_next k (hstep.trans hexec)
      by_cases hq : s'.q = []
      · refine ⟨1, Nat.one_pos, le_max_left _ _, .inl ⟨_, hfirst 0, ?_, hq⟩⟩
        simp [hq]
      · have hnext : drainNext (State.answer { s' with draining := !s'.q.isEmpty } st) :=
          ⟨(handover_of_deliveryEffect heffect).trans h.1, .inl (by simp [hq])⟩
        obtain ⟨k, hpos, hle, hend⟩ := ih (stateWeight s') hless _ hnext rfl
        have hpos' := stateWeight_pos hq
        refine ⟨k + 1, Nat.succ_pos k, by omega, ?_⟩
        rw [hfirst k]
        refine hend.imp_right fun ⟨hrefused, hready⟩ => ⟨hrefused, fun hs => hready ?_⟩
        have hready' := drainReady_of_deliveryEffect heffect hs
        exact hready'
    · exact ⟨1, Nat.one_pos, le_max_left _ _, .inr ⟨⟨r, steps_succ_of_refused 0 (hstep.trans hexec)⟩,
        fun hready => deliverNext_ne_stopped (s := { s with inbox := inbox }) hready r hstop⟩⟩

/-- Settles O36: the weight of a state is at most the model's bound. -/
theorem drainEndsWithEmptyQueue : Obligations.DrainEndsWithEmptyQueue := by
  intro s h
  obtain ⟨k, hpos, hle, hend⟩ := drain_ends s h
  have hbound := stateWeight_le_drainBound s
  exact ⟨k, hpos, by omega, hend.imp_right And.left⟩

/-- Settles O37: a state that is ready for a drain sees no refusal. -/
theorem drainCompletes : Obligations.DrainCompletes := by
  intro s hunbounded htables hlabels
  have hready : DrainReady s := ⟨hunbounded, htables, hlabels⟩
  refine ⟨?_, fun h => ?_⟩
  · rcases exec_nDrain_cases s with ⟨hq, hexec⟩ | ⟨s', st, _, hexec⟩ | ⟨r, hstop, _⟩
    · exact ⟨_, hexec, by simp [afterStatus, hq]⟩
    · exact ⟨_, hexec, by simp⟩
    · exact absurd hstop (deliverNext_ne_stopped hready r)
  · obtain ⟨k, _, _, ⟨t, hsteps, hdraining, hq⟩ | ⟨_, hnot⟩⟩ := drain_ends s h
    · exact ⟨k, t, hsteps, hdraining, hq⟩
    · exact absurd hready hnot

end Sys2Proof.Proofs

/-! PROOF. The handshake through the link (the spec's T3): one turn of a drain as its owner's receive operation, and the
three receive operations of a handshake (R212, R181, R213). -/

namespace Sys2Proof.Proofs

open Sys2Proof Sys2Proof.Machine Sys2Proof.Laws

/-- The receive operation of an emitted record whose segment meets a row's condition, where the list reaches that row. -/
theorem receiveOf_of_condition {p : Params} {e : Seq} {g : Segment} (c : RxCase)
    (hreach : caseRow (firstCase (caseRole c)) p e g = caseRow c p e g) (hcond : caseCondition e g c) :
    receiveOf (caseRole c) p (codecEncode g) e = caseAct c p e g := by
  rw [← caseRow_of_condition p hcond, ← hreach]
  cases hrole : caseRole c with
  | initiator => exact congrFun (initiatorReceive_of_codecDecode p (codecDecode_codecEncode g)) e
  | responder => exact congrFun (responderReceive_of_codecDecode p (codecDecode_codecEncode g)) e

/-- A LISTENING Responder answers a SYN from a nonzero port (R212). -/
theorem responder_receives_syn (p : Params) {i r : Seq} (sq ak : Word32) (hstate : r.state = .listening)
    (hport : i.port ≠ 0) :
    receiveOf .responder p (builtOut p i flagsSyn r.port sq ak []).wire r =
      done { r with rcvAck := sq + 1, state := .synReceived }
        [builtOut p r flagsSynAck i.port r.sndSeq (sq + 1) []] :=
  (receiveOf_of_condition .rC1 rfl ⟨hstate, rfl⟩).trans (addressed_of_ne_zero i.port r _ hport)

/-- A SYN-SENT Initiator answers a SYN+ACK from a nonzero port (R181). -/
theorem initiator_receives_synAck (p : Params) {i r : Seq} (sq ak : Word32) (hstate : i.state = .synSent)
    (hport : r.port ≠ 0) :
    receiveOf .initiator p (builtOut p r flagsSynAck i.port sq ak []).wire i =
      done { i with rcvAck := sq + 1, state := .established }
        [builtOut p i flagsAck r.port i.sndSeq (sq + 1) []] :=
  (receiveOf_of_condition .iC1 (rowIC0_of_preEst p _ ((preEst_iff _).mpr (.inl hstate)))
    ⟨rfl, rfl, .inl hstate⟩).trans (addressed_of_ne_zero r.port i _ hport)

/-- A Responder in SYN-RECEIVED takes the ACK that completes the handshake (R213). -/
theorem responder_receives_ack (p : Params) {i r : Seq} (sq ak : Word32) (hstate : r.state = .synReceived) :
    receiveOf .responder p (builtOut p i flagsAck r.port sq ak []).wire r = done { r with state := .established } [] :=
  receiveOf_of_condition .rC1a (caseRow_rC1_of_synReceived p _ hstate) ⟨hstate, rfl⟩

/-- One turn of a drain with unbounded capacities at the owner of the head's port (R244, R245): a step, with status OK. -/
theorem step_of_receive {s : State} {d : DeliveryRecord} {rest tx : List DeliveryRecord} {role : Role} {n : Nat}
    {e e' : Seq} (hnext : drainNext s) (hfree : unbounded s) (hq : s.q = d :: rest)
    (hroute : route s d.dstPort = some (role, n)) (hat : sequencerAt s n role e)
    (hreceive : receiveOf role s.par d.wire e = done e' tx) :
    ∃ t, step s = .next t ∧ t.resp.status = some .ok ∧ t.draining = !(rest ++ tx).isEmpty ∧ t.q = rest ++ tx ∧
      t.seqs = s.seqs.set n e' ∧ t.par = s.par ∧ t.itab = s.itab ∧ t.rtab = s.rtab ∧ t.handover = [] := by
  obtain ⟨he, hrole, hown⟩ := hat
  obtain ⟨hpayload, hdepth⟩ := hfree
  obtain ⟨inbox, hstep⟩ := step_of_drainNext hnext
  have hdeliver : deliverNext { s with inbox := inbox } =
      deliverTo role n d.wire { s with inbox := inbox, q := rest } := deliverNext_of_owner hq hroute
  rw [deliverTo_eq (s := { s with inbox := inbox, q := rest }) he hrole hown] at hdeliver
  simp only [wireOverMax, queueHasRoom, hpayload, hdepth, hreceive, overLimit_none] at hdeliver
  simp only [Bool.and_false, Bool.not_false, Bool.or_true, Bool.false_eq_true, if_true, if_false] at hdeliver
  rw [exec_nDrain, execNDrain, hdeliver] at hstep
  exact ⟨_, hstep, rfl, rfl, rfl, rfl, rfl, rfl, rfl, hnext.1⟩

/-- An Initiator and a Responder stand at different places. -/
theorem ne_of_sequencerAt {s : State} {a b : Nat} {i r : Seq} (hi : sequencerAt s a .initiator i)
    (hr : sequencerAt s b .responder r) : a ≠ b := by
  rintro rfl
  obtain ⟨he, hrole, _⟩ := hi
  obtain ⟨he', hrole', _⟩ := hr
  obtain rfl : i = r := Option.some.inj (he.symm.trans he')
  rw [hrole] at hrole'
  cases hrole'

/-- Settles O39: the SYN reaches the Responder, its SYN+ACK the Initiator, and the ACK the Responder again. -/
theorem drainCompletesHandshake : Obligations.DrainCompletesHandshake := by
  intro s a b i r hnext hfree hi hr histate hrstate hiport hrport hrtab hrtab' hitab hq
  have hab : a ≠ b := ne_of_sequencerAt hi hr
  have ⟨hia, hirole, hiown⟩ := hi
  have ⟨hrb, hrrole, _⟩ := hr
  have hin : a < s.seqs.length := (List.getElem?_eq_some_iff.mp hia).1
  have hrn : b < s.seqs.length := (List.getElem?_eq_some_iff.mp hrb).1
  obtain ⟨t₁, hstep₁, hok₁, hdrain₁, hq₁, hseqs₁, hpar₁, hitab₁, hrtab₁, hhandover₁⟩ :=
    step_of_receive hnext hfree hq (route_of_rtab hrtab) hr
      (responder_receives_syn s.par i.sndSeq i.rcvAck hrstate hiport)
  have hi₁ : sequencerAt t₁ a .initiator i :=
    ⟨by rw [hseqs₁, List.getElem?_set_ne hab.symm, hia], hirole, hiown⟩
  have hroute₁ : route t₁ i.port = some (.initiator, a) := route_of_itab (hrtab₁.symm ▸ hrtab') (hitab₁.symm ▸ hitab)
  have hreceive₁ := initiator_receives_synAck s.par r.sndSeq (i.sndSeq + 1) histate hrport
  rw [← hpar₁] at hreceive₁
  obtain ⟨t₂, hstep₂, hok₂, hdrain₂, hq₂, hseqs₂, hpar₂, hitab₂, hrtab₂, hhandover₂⟩ :=
    step_of_receive (s := t₁) ⟨hhandover₁, .inl hdrain₁⟩ (by rwa [unbounded, hpar₁]) (hpar₁ ▸ hq₁)
      hroute₁ hi₁ hreceive₁
  have hr₂ : sequencerAt t₂ b .responder { r with rcvAck := i.sndSeq + 1, state := .synReceived } :=
    ⟨by rw [hseqs₂, List.getElem?_set_ne hab, hseqs₁, List.getElem?_set_self hrn], hrrole, rfl⟩
  have hroute₂ : route t₂ r.port = some (.responder, b) := route_of_rtab (by rw [hrtab₂, hrtab₁, hrtab])
  have hreceive₂ := responder_receives_ack (i := i) (r := { r with rcvAck := i.sndSeq + 1, state := .synReceived })
    t₁.par i.sndSeq (r.sndSeq + 1) rfl
  rw [← hpar₂] at hreceive₂ hq₂
  obtain ⟨t, hstep, hok, hdrain, hqt, hseqs, _, _, _, _⟩ :=
    step_of_receive (s := t₂) ⟨hhandover₂, .inl hdrain₂⟩ (by rwa [unbounded, hpar₂, hpar₁]) hq₂ hroute₂ hr₂ hreceive₂
  have hsteps₁ : steps 1 s = .next t₁ := steps_succ_of_next 0 hstep₁
  have hsteps₂ : steps 2 s = .next t₂ := (steps_succ_of_next 1 hstep₁).trans (steps_succ_of_next 0 hstep₂)
  have hsteps₃ : steps 3 s = .next t :=
    (steps_succ_of_next 2 hstep₁).trans ((steps_succ_of_next 1 hstep₂).trans (steps_succ_of_next 0 hstep))
  refine ⟨t₁, t₂, t, hsteps₁, hsteps₂, hsteps₃, hok₁, hok₂, hok, hdrain₁, hdrain₂, hdrain, hqt, ?_, ?_⟩
  · rw [hseqs, List.getElem?_set_ne hab.symm, hseqs₂, List.getElem?_set_self (by rwa [hseqs₁, List.length_set])]
  · rw [hseqs, List.getElem?_set_self (by rwa [hseqs₂, List.length_set, hseqs₁, List.length_set])]

end Sys2Proof.Proofs

/-! PROOF. The layout of a segment's wire and of its header read as `HDR` (30_encoding.md R101, R103), the two segment
formats on the codec's decoding side (R117), and the values at reset and the codes (10_state.md R33, R49, R270). -/

namespace Sys2Proof.Proofs

open Sys2Proof Sys2Proof.Machine Sys2Proof.Laws

/-! ### The header as `HDR` -/

/-- The bits `lo` to `lo + m - 1` of `HDR` are a field of the wire (R101). -/
theorem extractLsb_hdrOfWire {w : Wire} (hlen : 160 ≤ w.length) (lo m : Nat) (h : lo + m ≤ 160) :
    (hdrOfWire w).extractLsb' lo m = memRead w (160 - lo - m) m := by
  apply BitVec.eq_of_getMsbD_eq
  intro k hk
  have hbit : (hdrOfWire w).getMsbD (160 - lo - m + k) = bitAt w (160 - lo - m + k) := by
    rw [hdrOfWire, memRead_getMsbD w 0 160 _ hlen (by omega), Nat.zero_add]
  have hidx : 160 - 1 - (160 - lo - m + k) = lo + (m - 1 - k) := by omega
  have hin : 160 - lo - m + k < 160 := by omega
  have hbelow : m - 1 - k < m := by omega
  rw [memRead_getMsbD w _ m k (by omega) hk, ← hbit, BitVec.getMsbD_eq_getLsbD, BitVec.getMsbD_eq_getLsbD, hidx,
    BitVec.getLsbD_extractLsb', decide_eq_true hk, decide_eq_true hin, decide_eq_true hbelow, Bool.true_and]

/-- Payload byte `j` of a record stands at position `160 + 8 j` (R148). -/
theorem memRead_payload {g : Segment} {j : Nat} {b : Byte} (h : g.payload[j]? = some b) :
    memRead (codecEncode g) (160 + 8 * j) 8 = b := by
  have hj : j < g.payload.length := (List.getElem?_eq_some_iff.mp h).1
  have hcount : ((codecEncode g).length - 160) / 8 = g.payload.length := by rw [codecEncode_length]; omega
  rw [← decodePayload_codecEncode g, decodePayload, hcount, List.getElem?_map, List.getElem?_range hj] at h
  exact Option.some.inj h

/-- Settles O4: the wire positions are those DECODE reads, and the bits of `HDR` are the same fields. -/
theorem headerFieldPositions : Obligations.HeaderFieldPositions := by
  intro g
  have hfields := decodeFields_codecEncode g
  have hlen : 160 ≤ (codecEncode g).length := by rw [codecEncode_length]; omega
  have hsrc := congrArg Segment.srcPort hfields
  have hdst := congrArg Segment.dstPort hfields
  have hseq := congrArg Segment.seq hfields
  have hack := congrArg Segment.ack hfields
  have hoffset := congrArg Segment.dataOffset hfields
  have hreserved := congrArg Segment.reserved hfields
  have hflags := wireFlags9_codecEncode g
  have hwindow := congrArg Segment.window hfields
  have hchecksum := congrArg Segment.checksum hfields
  have hurgent := congrArg Segment.urgent hfields
  have hdr (lo m : Nat) (h : lo + m ≤ 160) := extractLsb_hdrOfWire hlen lo m h
  exact ⟨hsrc, hdst, hseq, hack, hoffset, hreserved, hflags, hwindow, hchecksum, hurgent, fun _ _ => memRead_payload,
    (hdr 144 16 (by decide)).trans hsrc, (hdr 128 16 (by decide)).trans hdst, (hdr 96 32 (by decide)).trans hseq,
    (hdr 64 32 (by decide)).trans hack, (hdr 60 4 (by decide)).trans hoffset,
    (hdr 57 3 (by decide)).trans hreserved, (hdr 48 9 (by decide)).trans hflags,
    (hdr 32 16 (by decide)).trans hwindow, (hdr 16 16 (by decide)).trans hchecksum,
    (hdr 0 16 (by decide)).trans hurgent⟩

/-- The weights of the flags field (R103). -/
theorem flags9_toNat (f : FlagSet) :
    (flags9 f).toNat = 0x100 * f.urg.toNat + 0x080 * f.ack.toNat + 0x040 * f.psh.toNat + 0x020 * f.rst.toNat +
      0x010 * f.syn.toNat + 0x008 * f.fin.toNat := by
  obtain ⟨urg, ack, psh, rst, syn, fin⟩ := f
  revert urg ack psh rst syn fin
  decide

/-- A decoded wire has a whole header, and DECODE reads its fields (R142). -/
theorem eq_decodeFields_of_codecDecode {w : Wire} {g : Segment} (h : codecDecode w = some g) :
    160 ≤ w.length ∧ g = decodeFields w := by
  by_cases hlen : w.length < 160
  · rw [codecDecode_of_short hlen] at h
    cases h
  · rw [codecDecode_of_long (by omega)] at h
    cases h
    exact ⟨by omega, rfl⟩

/-- Settles O5: the weights over the 64 flag sets, and DECODE's flags as the field's upper six bits. -/
theorem flagsFieldWeights : Obligations.FlagsFieldWeights := by
  refine ⟨flags9_toNat, fun w g h => ?_⟩
  obtain ⟨hlen, rfl⟩ := eq_decodeFields_of_codecDecode h
  rw [decodeFields_flags w (by omega)]
  exact ⟨rfl, rfl, rfl, rfl, rfl, rfl⟩

/-! ### The row SEG (R101, log entry 9) -/

theorem exec_seg (hdr : BitVec 160) (tail : Wire) (s : State) :
    exec (.seg hdr tail) s = answerDecode (wireOfSeg hdr tail) s := rfl

theorem exec_segBuilt (src dst : Port) (sq ak : Word32) (f : FlagSet) (wi ck up : BitVec 16) (pl : List Byte)
    (s : State) : exec (.segBuilt src dst sq ak f wi ck up pl) s =
      answerDecode (codecEncode (mkSeg src dst sq ak f wi ck up pl)) s := rfl

@[simp] theorem wireOfSeg_length (hdr : BitVec 160) (tail : Wire) : (wireOfSeg hdr tail).length =
    160 + tail.length := by
  simp [wireOfSeg]

@[simp] theorem hdrOfWire_wireOfSeg (hdr : BitVec 160) (tail : Wire) : hdrOfWire (wireOfSeg hdr tail) = hdr :=
  memRead_bitsN_append hdr tail

/-- The payload of a SEG wire is the whole bytes of its tail. -/
theorem decodePayload_wireOfSeg (hdr : BitVec 160) (tail : Wire) :
    decodePayload (wireOfSeg hdr tail) = (List.range (tail.length / 8)).map fun j => memRead tail (8 * j) 8 := by
  have hcount : ((wireOfSeg hdr tail).length - 160) / 8 = tail.length / 8 := by rw [wireOfSeg_length]; omega
  rw [decodePayload, hcount]
  refine List.map_congr_left fun j _ => ?_
  rw [wireOfSeg, memRead_append_right _ _ _ _ (by rw [bitsN_length]; omega), bitsN_length, Nat.add_sub_cancel_left]

/-- Settles O8: the fields DECODE reads from the header's wire are the bits of `HDR`. -/
theorem segAnswersHdrFields : Obligations.SegAnswersHdrFields := by
  intro hdr tail s hmax
  have hlen : 160 ≤ (wireOfSeg hdr tail).length := by rw [wireOfSeg_length]; omega
  have hcount : ((wireOfSeg hdr tail).length - 160) / 8 = tail.length / 8 := by rw [wireOfSeg_length]; omega
  have hfield (lo m : Nat) (h : lo + m ≤ 160) :
      memRead (wireOfSeg hdr tail) (160 - lo - m) m = hdr.extractLsb' lo m := by
    rw [← extractLsb_hdrOfWire hlen lo m h, hdrOfWire_wireOfSeg]
  have hflags : wireFlags9 (wireOfSeg hdr tail) = hdr.extractLsb' 48 9 := hfield 48 9 (by decide)
  refine ⟨decodeFields (wireOfSeg hdr tail), ?_, hfield 144 16 (by decide), hfield 128 16 (by decide),
    hfield 96 32 (by decide), hfield 64 32 (by decide), hfield 60 4 (by decide), hfield 57 3 (by decide), ?_,
    hfield 32 16 (by decide), hfield 16 16 (by decide), hfield 0 16 (by decide), decodePayload_wireOfSeg hdr tail⟩
  · rw [exec_seg, answerDecode_within hlen (by rwa [hcount])]
    rfl
  · rw [decodeFields_flags _ (le_trans (by decide) hlen), hflags]

/-! ### The row SEG.BUILT (R117, log entry 9) -/

/-- The wire of two adjacent fields. -/
theorem bitsN_append {m n : Nat} (x : BitVec m) (y : BitVec n) : bitsN (x ++ y) = bitsN x ++ bitsN y := by
  rw [bitsN, bitsN, bitsN, List.range_add, List.map_append, List.map_map]
  congr 1
  · refine List.map_congr_left fun k hk => ?_
    rw [BitVec.getMsbD_append, if_neg (Nat.not_le.mpr (List.mem_range.mp hk))]
  · refine List.map_congr_left fun k _ => ?_
    rw [Function.comp_apply, BitVec.getMsbD_append, if_pos (Nat.le_add_right m k), Nat.add_sub_cancel_left]

/-- A mask on bits 48 to 63 of the header is a mask on that field. -/
theorem and_shiftLeft_of_extract {hdr : BitVec 160} {mask x : BitVec 16} (h : hdr.extractLsb' 48 16 &&& mask = x) :
    hdr &&& (mask.setWidth 160 <<< 48) = x.setWidth 160 <<< 48 := by
  subst h
  apply BitVec.eq_of_getLsbD_eq
  intro i hi
  by_cases hlow : i < 48
  · simp [hlow]
  · have hidx : 48 + (i - 48) = i := by omega
    by_cases hin : i - 48 < 16
    · simp [hlow, hi, hidx, hin]
    · simp [hlow, hi, hidx, hin, BitVec.getLsbD_of_ge mask (i - 48) (Nat.le_of_not_lt hin)]

/-- The pattern of SEG.BUILT on the header bits it looks at (R117). -/
theorem builtPattern_of_extract {hdr : BitVec 160} (h : hdr.extractLsb' 48 16 &&& 0xFE07 = 0x5000) :
    builtPattern hdr = true := by
  have hmask : 0x000000000000000000000000FE07000000000000#160 = BitVec.setWidth 160 0xFE07#16 <<< 48 := by decide
  have hmatch : 0x0000000000000000000000005000000000000000#160 = BitVec.setWidth 160 0x5000#16 <<< 48 := by decide
  rw [builtPattern, hmask, hmatch, beq_iff_eq]
  exact and_shiftLeft_of_extract h

/-- The header bits 63 to 48 of a record: data offset, reserved bits, flags field (R101). -/
theorem extractLsb_hdrOfWire_codecEncode (g : Segment) :
    (hdrOfWire (codecEncode g)).extractLsb' 48 16 = g.dataOffset ++ g.reserved ++ flags9 g.flags := by
  have hfield : codecEncode g =
      (bitsN g.srcPort ++ bitsN g.dstPort ++ bitsN g.seq ++ bitsN g.ack) ++
        (bitsN (g.dataOffset ++ g.reserved ++ flags9 g.flags) ++
          (bitsN g.window ++ bitsN g.checksum ++ bitsN g.urgent ++ wireOfBytes g.payload)) := by
    simp only [codecEncode, encodeHeader, bitsN_append, List.append_assoc]
  rw [extractLsb_hdrOfWire (by rw [codecEncode_length]; omega) 48 16 (by decide), hfield]
  exact memRead_field _ _ (g.dataOffset ++ g.reserved ++ flags9 g.flags) 96 (by simp)

/-- The header of a well-formed record has the pattern of SEG.BUILT and whole payload bytes. -/
theorem isBuiltWire_codecEncode {g : Segment} (h : segWellFormed g = true) : isBuiltWire (codecEncode g) = true := by
  obtain ⟨hoffset, hreserved⟩ : g.dataOffset = 5 ∧ g.reserved = 0 := by simpa [segWellFormed] using h
  have hwhole : ((codecEncode g).length - 160) % 8 = 0 := by rw [codecEncode_length]; omega
  have hfield : (hdrOfWire (codecEncode g)).extractLsb' 48 16 &&& 0xFE07 = 0x5000 := by
    rw [extractLsb_hdrOfWire_codecEncode, hoffset, hreserved]
    obtain ⟨urg, ack, psh, rst, syn, fin⟩ := g.flags
    revert urg ack psh rst syn fin
    decide
  rw [isBuiltWire, builtPattern_of_extract hfield, hwhole]
  rfl

/-- Settles O9: the record is well-formed, and DECODE reads it back. -/
theorem builtSegmentAnswersItsRecord : Obligations.BuiltSegmentAnswersItsRecord := by
  intro src dst sq ak f wi ck up pl s hmax
  refine ⟨isBuiltWire_codecEncode rfl, ?_⟩
  have hlen := codecEncode_length (mkSeg src dst sq ak f wi ck up pl)
  have hcount : ((codecEncode (mkSeg src dst sq ak f wi ck up pl)).length - 160) / 8 = pl.length := by
    rw [hlen]
    exact (congrArg (· / 8) (Nat.add_sub_cancel_left ..)).trans (Nat.mul_div_cancel_left _ (by decide))
  rw [exec_segBuilt, answerDecode_within (by omega) (hcount ▸ hmax), decodeFields_codecEncode]
  rfl

/-- Settles O45: the pattern tells the two formats apart, and each is read back from its wire. -/
theorem segmentFormsRoundTrip : Obligations.SegmentFormsRoundTrip := by
  refine fun b seqs => ⟨fun hdr tail hwf => ?_, fun src dst sq ak f wi ck up pl => ?_⟩
  · have hbuilt : isBuiltWire (wireOfSeg hdr tail) = false := by simpa [WellFormed] using hwf
    have hlong : ¬ (wireOfSeg hdr tail).length < 160 := by rw [wireOfSeg_length]; omega
    have hdrop : (wireOfSeg hdr tail).drop 160 = tail := List.drop_left' (bitsN_length hdr)
    simp only [encode, decodeRequest, decodeCodecWire, hlong, hbuilt, hdrop, hdrOfWire_wireOfSeg]
    rfl
  · have hbuilt : isBuiltWire (codecEncode (mkSeg src dst sq ak f wi ck up pl)) = true := isBuiltWire_codecEncode rfl
    have hlong : ¬ (codecEncode (mkSeg src dst sq ak f wi ck up pl)).length < 160 := by
      rw [codecEncode_length]
      omega
    simp only [encode, decodeRequest, decodeCodecWire, hlong, hbuilt, decodeFields_codecEncode]
    rfl

/-! ### Samples, reset and codes -/

/-- Settles O47: by evaluation of the decoder on the six written-out encodings. -/
theorem sampleWordsDecode : Obligations.SampleWordsDecode :=
  ⟨rfl, rfl, rfl, rfl, rfl, by decide +kernel⟩

/-- A sequencer at reset, field by field (R49). -/
theorem seq_reset_eq (c : SeqConfig) :
    Seq.reset c = { role := c.role, port := c.port, iss := c.iss,
                    state := if c.role = .initiator then .closed else .listening,
                    sndSeq := c.iss, rcvAck := 0, finOwed := false } := by
  obtain ⟨role, port, iss⟩ := c
  cases role <;> rfl

/-- Settles O48: the sequencers at reset are `Seq.reset` of their constants, everything else is empty. -/
theorem resetValues : Obligations.ResetValues := by
  refine ⟨fun p cs => ⟨rfl, rfl, rfl, rfl, List.length_map .., fun n c hc => ?_⟩, rfl⟩
  rw [State.resetWith, List.getElem?_map, hc, Option.map_some, seq_reset_eq]

/-- Settles O59: by the twelve labels and the six statuses. -/
theorem stateAndStatusCodes : Obligations.StateAndStatusCodes := by
  refine ⟨⟨rfl, rfl, rfl, rfl, rfl, rfl, rfl, rfl, rfl, rfl, rfl, rfl⟩, fun c => ?_,
    ⟨rfl, rfl, rfl, rfl, rfl, rfl⟩, fun st => ?_⟩
  · cases c <;> decide
  · cases st <;> decide

end Sys2Proof.Proofs
